-- ==== Sys2Proof/Word.lean ====
section
/-! DEFINITION. The word types of the block (R6, R11) and the array of six per-slot values (R30 (a)). -/

namespace Sys2Proof

/-- `Byte`, an 8-bit unsigned value (R11). -/
abbrev Byte := BitVec 8

/-- `Time`, an unsigned value of `TIME_W` bits (R11). The width is a parameter (R5), so the value is a natural number that
`Config.timeOf` keeps to that width where the block takes it, and the invariant bounds it (log 7). -/
abbrev Time := Nat

/-- The bits a register needs that counts from 0 to `n`: ⌈log2(n + 1)⌉ (R16, R17). -/
def bitWidth (n : Nat) : Nat := if n = 0 then 0 else n.log2 + 1

/-- A HID report: a sequence of bytes, byte 0 first (R6, R11). That it has exactly `REPORT_SIZE` bytes is checked where
a rule needs it, not by the type. -/
abbrev Report := List Byte

/-- An array indexed by the slots 0..5: exactly six values exist at all times (R30 (a)). -/
structure Six (α : Type) where
  s0 : α
  s1 : α
  s2 : α
  s3 : α
  s4 : α
  s5 : α
deriving DecidableEq, Repr, Inhabited

/-- The array that holds `a` at every index. -/
def Six.fill {α : Type} (a : α) : Six α := ⟨a, a, a, a, a, a⟩

/-- `A[i]` (R7). -/
def Six.get {α : Type} (v : Six α) (i : Fin 6) : α :=
  match i.val with
  | 0 => v.s0
  | 1 => v.s1
  | 2 => v.s2
  | 3 => v.s3
  | 4 => v.s4
  | _ => v.s5

/-- `A[i] <- a` (R7). -/
def Six.set {α : Type} (v : Six α) (i : Fin 6) (a : α) : Six α :=
  match i.val with
  | 0 => { v with s0 := a }
  | 1 => { v with s1 := a }
  | 2 => { v with s2 := a }
  | 3 => { v with s3 := a }
  | 4 => { v with s4 := a }
  | _ => { v with s5 := a }

/-- The six elements in ascending slot order. -/
def Six.toList {α : Type} (v : Six α) : List α := [v.s0, v.s1, v.s2, v.s3, v.s4, v.s5]

/-- The slot indices in ascending order: the loop `for i = 0, 1, 2, 3, 4, 5` of R145. -/
def slotOrder : List (Fin 6) := [0, 1, 2, 3, 4, 5]

end Sys2Proof
end

