-- ==== Sys2Proof/Config.lean ====
section
/-! DEFINITION. What an instance fixes: the parameters of R5 as one record, the report codes (R60 to R70) among them; the
outside world's inputs and answers (R26, R28, R205 to R208); and the free values (R5, 93 U10, U11). -/

namespace Sys2Proof

namespace Config

/-- `RETRY_MAX` (R5): a single automatic retry; fixed by the source. -/
abbrev retryMax : Nat := 1

/-- The value of `BRIDGE_VID` in `State.reset`: OPEN (R5, 92 D34). Free: it has no body and nothing constrains it (log 20). -/
opaque freeVid : BitVec 16

/-- The value of `BRIDGE_PID` in `State.reset`: OPEN (R5, 92 D34). Free (log 20). -/
opaque freePid : BitVec 16

end Config

/-- `RETRY_ON`, a subset of the four bus outcomes (R5, R109): one membership bit each. -/
structure RetrySet where
  timeout     : Bool
  nack        : Bool
  busy        : Bool
  lenMismatch : Bool
deriving DecidableEq, Repr, Inhabited

/-- The parameters of R5, with the defaults R5 shows; `Config.legal` states the constraints. `NSLOTS`, `PORT_W`, `RETRY_MAX` and
`RECONNECT_MAX` are fixed by the source and are no fields; `MAX_WR` and `MAX_RD` are fixed by two fields (`maxPayload`).
`EXP_ADDR` has eight bits so that an illegal instance can be written down (93 U18, vector Q14). -/
structure Config where
  /-- `DEBOUNCE_N` = `CFG_DEBOUNCE_N` (CS3). -/
  debounceN : BitVec 8 := 2#8
  /-- `NOTIFY_EN` = `CFG_NOTIFY_EN` (CS4); R5 gives no default, the vectors of file 95 use 1 (log 3, DESIGN CHOICE). -/
  notifyEn : Bool := true
  /-- `RETRY_ON`. -/
  retryOn : RetrySet := { timeout := true, nack := true, busy := false, lenMismatch := false }
  /-- `STATUS_POLL_MAX`. -/
  statusPollMax : Nat := 50
  /-- `STATUS_POLL_INTERVAL` in milliseconds; timing only (R234). -/
  statusPollInterval : Nat := 1
  /-- `RX_TIMEOUT` in milliseconds; timing only (R208). -/
  rxTimeout : Nat := 1
  /-- `POLL_PERIOD` in milliseconds; timing only (R209). -/
  pollPeriod : Nat := 1000
  /-- `REPORT_SIZE`: bytes in every HID report (R41). -/
  reportSize : Nat := 64
  /-- `HDR_SIZE`: header bytes of a report before the payload (R60). -/
  hdrSize : Nat := 4
  /-- `PAD`: the value of every unused report byte the block sends (R41). -/
  pad : Byte := 0x00#8
  /-- `TIME_W`: the width of a timestamp. -/
  timeW : Nat := 32
  /-- `CMD_*`: the command codes (R62 to R67). -/
  cmdSetSpeed : Byte := 0x10#8
  cmdI2cWrite : Byte := 0x20#8
  cmdI2cRead : Byte := 0x21#8
  cmdI2cWriteRead : Byte := 0x22#8
  cmdGetStatus : Byte := 0x30#8
  cmdGetData : Byte := 0x31#8
  /-- `RES_*`: the result codes of a response (R61). -/
  resOk : Byte := 0x00#8
  resBusy : Byte := 0x01#8
  resNoData : Byte := 0x02#8
  /-- `ST_*`: the transfer states of a status response (R69). -/
  stInProgress : Byte := 0x01#8
  stComplete : Byte := 0x02#8
  stErrNack : Byte := 0x03#8
  stErrTimeout : Byte := 0x04#8
  /-- `BRIDGE_VID`, used by `HidOpen` inside the transport only; no rule of the block reads it (92 D34). -/
  bridgeVid : BitVec 16 := Config.freeVid
  /-- `BRIDGE_PID`, as `BRIDGE_VID`. -/
  bridgePid : BitVec 16 := Config.freePid
  /-- `BUS_SPEED_HZ`. -/
  busSpeedHz : BitVec 32 := 100000#32
  /-- `EXP_ADDR`. -/
  expAddr : Byte := 0x20#8
  /-- `REG_DIR`. -/
  regDir : Byte := 0x00#8
  /-- `REG_PULLUP`. -/
  regPullup : Byte := 0x0C#8
  /-- `REG_PORT`. -/
  regPort : Byte := 0x12#8
  /-- `DIR_ALL_INPUT`. -/
  dirAllInput : BitVec 16 := 0xFFFF#16
  /-- `PULLUP_ALL_ON`. -/
  pullupAllOn : BitVec 16 := 0xFFFF#16
  /-- `PIN_CHG[i]`. -/
  pinChg : Six (Fin 16) := ⟨0, 2, 4, 6, 8, 10⟩
  /-- `PIN_FULL[i]`. -/
  pinFull : Six (Fin 16) := ⟨1, 3, 5, 7, 9, 11⟩
deriving DecidableEq, Repr, Inhabited

namespace Config

/-- `MAX_WR` = `MAX_RD` = `REPORT_SIZE` - `HDR_SIZE`: the longest payload of one operation (R5). -/
def maxPayload (c : Config) : Nat := c.reportSize - c.hdrSize

/-- The width of the length registers `wl` and `rl`, which hold 0 to `MAX_WR` = `MAX_RD` (R15): 6 bits with the defaults. -/
def lenWidth (c : Config) : Nat := bitWidth c.maxPayload

/-- The width of `k`, ⌈log2(`STATUS_POLL_MAX` + 1)⌉ bits (R17): 6 bits with the default. -/
def kWidth (c : Config) : Nat := bitWidth c.statusPollMax

/-- The `Time` value of a number supplied from outside: its low `TIME_W` bits (R11, R28). -/
def timeOf (c : Config) (t : Nat) : Time := t % 2 ^ c.timeW

end Config

/-- The input lines of one step (R26, R28): `rst`, `stop`, `tick`, `snap_query`, `now`, and the two static inputs. -/
structure Inputs where
  rst       : Bool
  stop      : Bool
  tick      : Bool
  query     : Bool
  /-- `now`; the block takes its low `TIME_W` bits (`Config.timeOf`). -/
  now       : Nat
  debounceN : BitVec 8
  notifyEn  : Bool
deriving DecidableEq, Repr, Inhabited

/-- No input raised. -/
def Inputs.quiet : Inputs :=
  { rst := false, stop := false, tick := false, query := false, now := 0, debounceN := 2#8, notifyEn := true }

/-- ENV's answer to `HidOpen` (R205). -/
inductive OpenAnswer where
  | ok
  | deviceNotFound
deriving DecidableEq, Repr, Inhabited

/-- ENV's answer to `HidSend` (R207). -/
inductive SendAnswer where
  | ok
  | ioError
  | invalidReportSize
deriving DecidableEq, Repr, Inhabited

/-- ENV's answers to the two calls of one exchange (R96): to `HidSend`, and, where that is `ok`, to `HidReceive`
(`none` is Timeout, R208). -/
structure XchgAnswer where
  send : SendAnswer
  recv : Option Report
deriving DecidableEq, Repr, Inhabited

namespace Config

/-- The `n`-th free value of the input lines, once no listed ones are left: any schedule, any `now` (93 U10, R29). Free: it
has no body and nothing constrains it (log 2). -/
opaque freeLines : Nat → Inputs

/-- The `n`-th free answer to `HidOpen` (93 U11, log 2). -/
opaque freeOpen : Nat → OpenAnswer

/-- The `n`-th free answer to an exchange (93 U11, log 2). -/
opaque freeXchg : Nat → XchgAnswer

end Config

end Sys2Proof
end

