-- ==== Sys2Proof/Syntax.lean ====
section
/-! DEFINITION. The enumerations of the block (R72 to R76) and `Instr`, one constructor per row of the opcode table. -/

namespace Sys2Proof

/-- `SlotState` (R11, R74). -/
inductive SlotState where
  | unknown
  | empty
  | charging
  | full
  | error
deriving DecidableEq, Repr, Inhabited

/-- `Outcome` of an attempt or of an operation (R75); named apart from `Host.Outcome`. -/
inductive BusOutcome where
  | ok
  | lenMismatch
  | timeout
  | busy
  | nack
  | ioErr
  | badSize
  | badArg
deriving DecidableEq, Repr, Inhabited

/-- `ErrClass` (R76). -/
inductive ErrClass where
  | noErr
  | deviceNotFound
  | busTimeout
  | busError
  | initError
  | invalidReportSize
  | ioError
  | invalidArg
deriving DecidableEq, Repr, Inhabited

/-- Driver operation codes (R72). -/
inductive OpCode where
  | configure
  | write
  | read
  | writeRead
deriving DecidableEq, Repr, Inhabited

/-- A request a caller hands to `BRG`: the tuple (`op`, `ta`, `w`, `r`) of R72. `ta` and `r` are as wide as a caller may
write them; R91 bounds them. -/
structure Request where
  op : OpCode
  ta : Byte
  w  : List Byte
  r  : Nat
deriving DecidableEq, Repr, Inhabited

/-- The operations of `spec/opcode_table.json`, one constructor per row. Operands are the fields the row names; a response
carries its ignored bytes too, since the trace `HID` records the whole report (R61, R96). -/
inductive Instr where
  /-- `SET_SPEED` (R62): the speed in hertz. -/
  | setSpeed (hz : BitVec 32)
  /-- `I2C_WRITE` (R63): target and payload. -/
  | i2cWrite (ta : BitVec 7) (wd : List Byte)
  /-- `I2C_READ` (R64): target and read length. -/
  | i2cRead (ta : BitVec 7) (rl : Byte)
  /-- `I2C_WRITE_READ` (R65): target, payload and read length. -/
  | i2cWriteRead (ta : BitVec 7) (wd : List Byte) (rl : Byte)
  /-- `GET_STATUS` (R66). -/
  | getStatus
  /-- `GET_DATA` (R67). -/
  | getData
  /-- `RSP_ACCEPTED` (R68): echo and the ignored bytes from byte 2 on. -/
  | rspAccepted (echo : Byte) (rest : List Byte)
  /-- `RSP_BUSY` (R68): echo and the ignored bytes from byte 2 on. -/
  | rspBusy (echo : Byte) (rest : List Byte)
  /-- `RSP_STATUS_IN_PROGRESS` (R69): the ignored bytes from byte 3 on. -/
  | rspStatusInProgress (rest : List Byte)
  /-- `RSP_STATUS_COMPLETE` (R69). -/
  | rspStatusComplete (rest : List Byte)
  /-- `RSP_STATUS_ERR_NACK` (R69). -/
  | rspStatusErrNack (rest : List Byte)
  /-- `RSP_STATUS_ERR_TIMEOUT` (R69). -/
  | rspStatusErrTimeout (rest : List Byte)
  /-- `RSP_DATA` (R70): the ignored byte 2, the count, and the bytes from byte 4 on. -/
  | rspData (state : Byte) (n : Byte) (data : List Byte)
  /-- `RSP_NODATA` (R70): the ignored bytes from byte 2 on. -/
  | rspNoData (rest : List Byte)
  /-- `RSP_NOANSWER` (R71): a report that matches no response row, or none within `RX_TIMEOUT`. -/
  | rspNoAnswer (rx : Option Report)
  /-- `CONFIGURE` (R113). -/
  | configure (hz : BitVec 32)
  /-- `WRITE` (R114). -/
  | write (ta : Byte) (wd : List Byte)
  /-- `READ` (R115). -/
  | read (ta : Byte) (rl : Nat)
  /-- `WRITEREAD` (R116). -/
  | writeRead (ta : Byte) (wd : List Byte) (rl : Nat)
  /-- `DECODE_EMPTY` (R77): pair 11. -/
  | decodeEmpty
  /-- `DECODE_CHARGING` (R77): pair 10. -/
  | decodeCharging
  /-- `DECODE_FULL` (R77): pair 01. -/
  | decodeFull
  /-- `DECODE_ERROR` (R77): pair 00. -/
  | decodeError
  /-- `INIT_DIR` (R131). -/
  | initDir
  /-- `INIT_PU` (R132). -/
  | initPu
  /-- `INITEXPANDER` (R130). -/
  | initExpander
  /-- `READPORT` (R133). -/
  | readPort
  /-- `POLL` (R174 to R177). -/
  | poll
  /-- `BOOT` (R170 to R173). -/
  | boot
  /-- `OPEN` (R170). -/
  | openBridge
  /-- `RECONNECT` (R178). -/
  | reconnect
  /-- `STOP` (R181). -/
  | stop
  /-- `RESET` (R215, R216). -/
  | reset
  /-- `DEBOUNCE` (R148): slot and decoded state. -/
  | debounce (slot : Fin 6) (d : SlotState)
  /-- `PUBLISH` (R155): the time of the cycle. -/
  | publish (t : Time)
  /-- `DISPATCH` (R156): the time of the cycle. -/
  | dispatch (t : Time)
  /-- `NOTIFY` (R162): the TransitionEvent (slot, previous, new, time). -/
  | notify (slot : Fin 6) (prev new : SlotState) (t : Time)
  /-- `GETSNAPSHOT` (R165). -/
  | getSnapshot
deriving DecidableEq, Repr, Inhabited

end Sys2Proof
end

