-- ==== Sys2Proof/Machine/State.lean ====
section
/-! DEFINITION. The state of the block (file 10, R10 to R34), the outside world as the model holds it, the ways a step can
stop, and the state after reset (R33, R215). -/

namespace Sys2Proof.Machine

/-- `sst`, the sequencer state: the outer program counter (R12). -/
inductive SeqState where
  | sOpen
  | sConfig
  | sInitDir
  | sInitPu
  | sIdle
  | sRead
  | sDead
  | sOff
deriving DecidableEq, Repr, Inhabited

/-- `bst`, the bridge-controller FSM state: the inner program counter (R13). -/
inductive BridgeState where
  | bClosed
  | bIdle
  | bCmd
  | bStat
  | bData
deriving DecidableEq, Repr, Inhabited

/-- `ERR` (R24): class and detailed outcome of the most recent error. -/
structure ErrReg where
  cls : ErrClass
  det : BusOutcome
deriving DecidableEq, Repr, Inhabited

/-- The registers of the sequencer `SEQ` (R10). -/
structure SeqRegs where
  sst : SeqState
  rc  : Bool
  err : ErrReg
deriving DecidableEq, Repr, Inhabited

/-- The registers of the bridge controller `BRG` (R10, R13, R15 to R18). -/
structure BridgeRegs where
  bst   : BridgeState
  /-- `op`, `ta`, `wl`, `wd[0..MAX_WR-1]`, `rl`: the operation latch (R15). `wl` and `rl` are `Config.lenWidth` bits wide: 6 with
  the defaults (log 7). -/
  op    : OpCode
  ta    : BitVec 7
  wl    : Nat
  wd    : List Byte
  rl    : Nat
  /-- `try` (R16). -/
  tries : BitVec 1
  /-- `k` (R17), `Config.kWidth` bits wide: 6 with the default `STATUS_POLL_MAX` (log 7). -/
  k     : Nat
  /-- `res`, `rd[0..MAX_RD-1]`: the result latch (R18). -/
  res   : BusOutcome
  rd    : List Byte
deriving DecidableEq, Repr, Inhabited

/-- `SNAP`, the shared SlotSnapshot (R23). -/
structure Snapshot where
  st    : Six SlotState
  ts    : Time
  stale : Bool
deriving DecidableEq, Repr, Inhabited

/-- The registers of the slot engine `SLT` (R20 to R23). -/
structure SlotRegs where
  commit : Six SlotState
  cand   : Six SlotState
  cnt    : Six (BitVec 8)
  snap   : Snapshot
deriving DecidableEq, Repr, Inhabited

/-- Values that live inside one `SlotCycle` (R145): the decoder's output `d` and the array `ev[0..5]` (log 16). The MODEL's
own. -/
structure Scratch where
  dec : SlotState
  ev  : Six (Option (SlotState × SlotState))
deriving DecidableEq, Repr, Inhabited

/-- A TransitionEvent (slot, previous, new, timestamp) (R27). -/
structure TransitionEvent where
  slot : Fin 6
  prev : SlotState
  new  : SlotState
  ts   : Time
deriving DecidableEq, Repr, Inhabited

/-- A notify request (slot, summary, timestamp) (R27). -/
structure NotifyRequest where
  slot    : Fin 6
  summary : Six SlotState
  ts      : Time
deriving DecidableEq, Repr, Inhabited

/-- An element of the output traces `EV` and `NT`, kept in the one order of R161 (log 15). -/
inductive Output where
  | ev (e : TransitionEvent)
  | nt (n : NotifyRequest)
deriving DecidableEq, Repr, Inhabited

/-- The timestamp an output bears (R27). -/
def Output.ts : Output → Time
  | .ev e => e.ts
  | .nt n => n.ts

/-- An element of the trace `HID`: a transport call with its answer (R27, R96, R205 to R208). -/
inductive HidCall where
  | opened (a : OpenAnswer)
  | closed
  | sent (r : Report) (a : SendAnswer)
  /-- `HidReceive(timeout)`; `none` is Timeout. -/
  | received (timeout : Nat) (a : Option Report)
deriving DecidableEq, Repr, Inhabited

/-- `LINK` (CS2, R32): the read-only view of `sst`, `rc` and `bst`. -/
structure Link where
  sst : SeqState
  rc  : Bool
  bst : BridgeState
deriving DecidableEq, Repr, Inhabited

/-- What a query of the Status Publisher returns: the snapshot, and the registers it may read in addition (R165). -/
structure QueryReply where
  snap : Snapshot
  err  : ErrReg
  link : Link
deriving DecidableEq, Repr, Inhabited

/-- The outside world as the model holds it (log 2): no register of the block. The MODEL's own. -/
structure World where
  /-- The input lines sampled for the current step. -/
  inp     : Inputs
  /-- The input lines of the steps to come. -/
  lines   : List Inputs
  /-- ENV's answers to the `HidOpen` calls to come. -/
  opens   : List OpenAnswer
  /-- ENV's answers to the exchanges to come. -/
  xchgs   : List XchgAnswer
  /-- How many free values have been drawn. -/
  drawn   : Nat
  /-- Whether the transport's exclusive handle is held (R205, log 14). -/
  handle  : Bool
  /-- What the queries have returned, oldest first (log 13). -/
  replies : List QueryReply
deriving DecidableEq, Repr, Inhabited

/-- The whole state (R10, R26, R27). Plain data. -/
structure State where
  cfg     : Config
  seq     : SeqRegs
  brg     : BridgeRegs
  /-- `PORT`, the PortSnapshot (R19). -/
  port    : BitVec 16
  slt     : SlotRegs
  scratch : Scratch
  /-- The traces `EV` and `NT`, oldest first. -/
  out     : List Output
  /-- The trace `HID`, oldest first. -/
  hid     : List HidCall
  world   : World
deriving DecidableEq, Repr, Inhabited

/-- How the machine can stop with a fault. -/
inductive Fault where
  /-- Raised by `step` alone: an exchange is next, and the operation latch builds a report that is no command report
  (a write length over `MAX_WR`, say). No run reaches such a latch (R15, R91). Safe: the block sends nothing. -/
  | undecodableReport
deriving DecidableEq, Repr

/-- How an operation can be refused. -/
inductive Refusal where
  /-- Raised by `exec` for an instruction with no meaning yet; no arm does so. Safe. -/
  | notModelled (mnemonic : String)
  /-- Raised by a command, a request, or a sequencer operation that the block does not admit in its present state: R91 (b),
  "a refused request under (b) has no step at all", 93 U13. Safe: no state changes. -/
  | notAdmitted
  /-- Raised by a driver request that violates R91 (a), made in `B_IDLE` (log 27): refused with outcome BADARG, no state change,
  no HID traffic. Safe. -/
  | badArg
  /-- Raised by RESET when the sampled `DEBOUNCE_N` is 0: not a legal instance, a model refuses to build it (93 U18). Safe. -/
  | illegalInstance
deriving DecidableEq, Repr

/-- `BRG` after reset (R33), for an instance with the parameters `c`. The operation latch and the reply bytes after reset are
unspecified (R33, 93 U4); zeros here (log 5, DESIGN CHOICE). -/
def BridgeRegs.reset (c : Config) : BridgeRegs :=
  { bst := .bClosed, op := .configure, ta := 0#7, wl := 0, wd := List.replicate c.maxPayload 0#8, rl := 0,
    tries := 0#1, k := 0, res := .ok, rd := List.replicate c.maxPayload 0#8 }

/-- `SEQ` after reset (R33). -/
def SeqRegs.reset : SeqRegs := { sst := .sOpen, rc := false, err := ⟨.noErr, .ok⟩ }

/-- `SLT` after reset (R33). -/
def SlotRegs.reset : SlotRegs :=
  { commit := Six.fill .unknown, cand := Six.fill .unknown, cnt := Six.fill 0#8,
    snap := { st := Six.fill .unknown, ts := 0, stale := true } }

/-- The scratch between two cycles (log 16). -/
def Scratch.reset : Scratch := { dec := .unknown, ev := Six.fill none }

/-- The world of `State.reset`: nothing listed, so every input and answer is a free value (log 6). -/
def World.reset : World :=
  { inp := Inputs.quiet, lines := [], opens := [], xchgs := [], drawn := 0, handle := false, replies := [] }

/-- The machine right after reset (R33, R215), with the default parameters of R5. -/
def State.reset : State :=
  { cfg := {}, seq := SeqRegs.reset, brg := BridgeRegs.reset {}, port := 0xFFFF#16, slt := SlotRegs.reset,
    scratch := Scratch.reset, out := [], hid := [], world := World.reset }

/-- `now` as the block samples it: the low `TIME_W` bits of the input (R11, R28). -/
def State.now (s : State) : Time := s.cfg.timeOf s.world.inp.now

/-- `LINK` (CS2). -/
def State.link (s : State) : Link := ⟨s.seq.sst, s.seq.rc, s.brg.bst⟩

/-- The trace `EV` (R27). -/
def State.ev (s : State) : List TransitionEvent :=
  s.out.filterMap (fun o => match o with | .ev e => some e | .nt _ => none)

/-- The trace `NT` (R27). -/
def State.nt (s : State) : List NotifyRequest :=
  s.out.filterMap (fun o => match o with | .ev _ => none | .nt n => some n)

end Sys2Proof.Machine
end

