-- ==== Sys2Proof/Machine/Flags.lean ====
section
/-! DEFINITION. The one-bit conditions of R25, the codes of the enumerations, and the packed views of `SNAP` and `ERR`
(R23, R24). -/

namespace Sys2Proof.Machine

/-- `stale` (R25). -/
def State.stale (s : State) : Bool := s.slt.snap.stale

/-- `rc` (R14, R25): the pass is the one reconnect attempt. -/
def State.rc (s : State) : Bool := s.seq.rc

/-- `dead` (R25): the persistent error state. -/
def State.dead (s : State) : Bool := decide (s.seq.sst = .sDead)

/-- `off` (R25). -/
def State.off (s : State) : Bool := decide (s.seq.sst = .sOff)

/-- `busy` (R25): `bst` is neither `B_CLOSED` nor `B_IDLE`, an operation is in flight. -/
def State.busy (s : State) : Bool := decide (s.brg.bst ≠ .bClosed ∧ s.brg.bst ≠ .bIdle)

/-- `ErrOf(outcome)` (R76). -/
def errOf : BusOutcome → ErrClass
  | .ok => .noErr
  | .lenMismatch => .busError
  | .timeout => .busTimeout
  | .busy => .busError
  | .nack => .busError
  | .ioErr => .ioError
  | .badSize => .invalidReportSize
  | .badArg => .invalidArg

/-- Codes of `sst` (R12). -/
def SeqState.code : SeqState → BitVec 3
  | .sOpen => 0#3
  | .sConfig => 1#3
  | .sInitDir => 2#3
  | .sInitPu => 3#3
  | .sIdle => 4#3
  | .sRead => 5#3
  | .sDead => 6#3
  | .sOff => 7#3

/-- Codes of `bst` (R13). -/
def BridgeState.code : BridgeState → BitVec 3
  | .bClosed => 0#3
  | .bIdle => 1#3
  | .bCmd => 2#3
  | .bStat => 3#3
  | .bData => 4#3

/-- Codes of `SlotState` (R74). -/
def slotCode : SlotState → BitVec 3
  | .unknown => 0#3
  | .empty => 1#3
  | .charging => 2#3
  | .full => 3#3
  | .error => 4#3

/-- Codes of `Outcome` (R75). -/
def outcomeCode : BusOutcome → BitVec 3
  | .ok => 0#3
  | .lenMismatch => 1#3
  | .timeout => 2#3
  | .busy => 3#3
  | .nack => 4#3
  | .ioErr => 5#3
  | .badSize => 6#3
  | .badArg => 7#3

/-- Codes of `ErrClass` (R76). -/
def errClassCode : ErrClass → BitVec 3
  | .noErr => 0#3
  | .deviceNotFound => 1#3
  | .busTimeout => 2#3
  | .busError => 3#3
  | .initError => 4#3
  | .invalidReportSize => 5#3
  | .ioError => 6#3
  | .invalidArg => 7#3

/-- The fields of `SNAP` but its time, packed, least significant field first: `st[0]` .. `st[5]`, `stale` (R23). -/
def Snapshot.packedStates (p : Snapshot) : BitVec 19 :=
  BitVec.ofBool p.stale ++ slotCode p.st.s5 ++ slotCode p.st.s4 ++ slotCode p.st.s3 ++ slotCode p.st.s2
    ++ slotCode p.st.s1 ++ slotCode p.st.s0

/-- `SNAP` packed, with a timestamp of `w` bits above the other fields (R23). -/
def Snapshot.packed (w : Nat) (p : Snapshot) : BitVec (w + 19) := BitVec.ofNat w p.ts ++ p.packedStates

/-- `ERR` packed: `cls` in bits [2:0], `det` in bits [5:3] (R24). -/
def ErrReg.packed (e : ErrReg) : BitVec 6 := outcomeCode e.det ++ errClassCode e.cls

end Sys2Proof.Machine
end

