-- ==== Sys2Proof/WellFormed.lean ====
section
/-! DEFINITION. Which instructions are well-formed: the operand ranges of R60 to R78 and R91, and the value restrictions of
R148 and R157. -/

namespace Sys2Proof

/-- A write payload has 1 to `MAX_WR` bytes (R63, R91). -/
def payloadOk (c : Config) (wd : List Byte) : Bool := decide (1 ≤ wd.length ∧ wd.length ≤ c.maxPayload)

/-- A read length is 1 to `MAX_RD` (R64, R91). -/
def readLenOk (c : Config) (n : Nat) : Bool := decide (1 ≤ n ∧ n ≤ c.maxPayload)

/-- A length that the one-byte length field of a command report can carry (R60; it restricts something only where
`REPORT_SIZE` > 259, log 4). -/
def fitsLengthByte (n : Nat) : Bool := decide (n ≤ 255)

/-- A target address has seven bits (R78 (c), R91). -/
def targetOk (ta : Byte) : Bool := decide (ta ≤ 0x7F#8)

/-- The echo of an accept response is the code of a command that starts a transfer (R68). -/
def acceptEchoOk (c : Config) (echo : Byte) : Bool :=
  decide (echo = c.cmdSetSpeed ∨ echo = c.cmdI2cWrite ∨ echo = c.cmdI2cRead ∨ echo = c.cmdI2cWriteRead)

/-- The bytes a response ignores fill the report up to `REPORT_SIZE` after `used` defined bytes (R61). -/
def restOk (c : Config) (used : Nat) (rest : List Byte) : Bool := decide (used + rest.length = c.reportSize)

/-- Whether the report `r` fits the match and mask of some response row of the table (R68 to R70). -/
def isResponseRow (c : Config) (r : Report) : Bool :=
  match r with
  | echo :: result :: state :: _ =>
    if echo = c.cmdGetStatus then
      decide (result = c.resOk ∧ (state = c.stInProgress ∨ state = c.stComplete ∨ state = c.stErrNack
        ∨ state = c.stErrTimeout))
    else if echo = c.cmdGetData then
      decide (result = c.resOk ∨ result = c.resNoData)
    else
      decide (result = c.resOk ∨ result = c.resBusy)
  | _ => false

/-- A time operand has `TIME_W` bits (R11). -/
def timeOk (c : Config) (t : Nat) : Bool := decide (t < 2 ^ c.timeW)

/-- The operand checks, one per row of the table, for an instance with the parameters `c`. -/
def Instr.wellFormed (c : Config) : Instr → Bool
  | .setSpeed _ => true
  | .i2cWrite _ wd => payloadOk c wd && fitsLengthByte wd.length
  | .i2cRead _ rl => readLenOk c rl.toNat
  | .i2cWriteRead _ wd rl => payloadOk c wd && fitsLengthByte wd.length && readLenOk c rl.toNat
  | .getStatus => true
  | .getData => true
  | .rspAccepted echo rest => acceptEchoOk c echo && restOk c 2 rest
  | .rspBusy echo rest => acceptEchoOk c echo && restOk c 2 rest
  | .rspStatusInProgress rest => restOk c 3 rest
  | .rspStatusComplete rest => restOk c 3 rest
  | .rspStatusErrNack rest => restOk c 3 rest
  | .rspStatusErrTimeout rest => restOk c 3 rest
  | .rspData _ _ data => restOk c 4 data
  | .rspNoData rest => restOk c 2 rest
  | .rspNoAnswer none => true
  | .rspNoAnswer (some r) => decide (r.length = c.reportSize) && !isResponseRow c r
  | .configure _ => true
  | .write ta wd => targetOk ta && payloadOk c wd
  | .read ta rl => targetOk ta && readLenOk c rl
  | .writeRead ta wd rl => targetOk ta && payloadOk c wd && readLenOk c rl
  | .decodeEmpty => true
  | .decodeCharging => true
  | .decodeFull => true
  | .decodeError => true
  | .initDir => true
  | .initPu => true
  | .initExpander => true
  | .readPort => true
  | .poll => true
  | .boot => true
  | .openBridge => true
  | .reconnect => true
  | .stop => true
  | .reset => true
  | .debounce _ d => decide (d ≠ .unknown)
  | .publish t => timeOk c t
  | .dispatch t => timeOk c t
  | .notify _ prev new t => decide (prev ≠ new ∧ new ≠ .unknown) && timeOk c t
  | .getSnapshot => true

/-- The constraints R5 puts on the parameters of an instance. -/
def Config.legal (c : Config) : Bool :=
  decide (1 ≤ c.debounceN.toNat)
  && decide (1 ≤ c.statusPollMax)
  && decide (0 < c.statusPollInterval) && decide (0 < c.rxTimeout) && decide (0 < c.pollPeriod)
  && decide (8 ≤ c.reportSize) && decide (c.hdrSize = 4) && decide (c.pad = 0x00#8) && decide (1 ≤ c.timeW)
  && decide [c.cmdSetSpeed, c.cmdI2cWrite, c.cmdI2cRead, c.cmdI2cWriteRead, c.cmdGetStatus, c.cmdGetData].Nodup
  && decide [c.resOk, c.resBusy, c.resNoData].Nodup
  && decide [c.stInProgress, c.stComplete, c.stErrNack, c.stErrTimeout].Nodup
  && decide (1 ≤ c.busSpeedHz.toNat)
  && targetOk c.expAddr
  && decide (c.regDir ≤ 0xFE#8) && decide (c.regPullup ≤ 0xFE#8) && decide (c.regPort ≤ 0xFE#8)
  && slotOrder.all (fun i => decide ((c.pinFull.get i).val = (c.pinChg.get i).val + 1))
  && decide (c.pinChg.toList ++ c.pinFull.toList).Nodup

end Sys2Proof
end

