-- ==== Sys2Proof/Decode.lean ====
section
/-! DEFINITION. Bits to instructions and back: the report formats of R60 to R70, the request codes of R72, the LED-pair codes
of R77; the table words of `spec/opcode_table.json`. -/

namespace Sys2Proof

/-- Why a bit pattern is no instruction (R78): the decoder rejects by name. -/
inductive DecodeError where
  /-- The report does not have `REPORT_SIZE` bytes (R41). -/
  | wrongLength
  /-- Byte 0 is none of the six command codes (R78 (a)). -/
  | unknownCode
  /-- Bit 7 of the target address byte is set (R60). -/
  | targetBit7
  /-- A header byte the format fixes has another value (R62 to R67, R72). -/
  | fixedFieldMismatch
  /-- The write length exceeds `MAX_WR` (R60). -/
  | writeTooLong
  /-- A pad byte is not `PAD` (R41, R60). -/
  | padNotZero
deriving DecidableEq, Repr

/-- The outcome of decoding. -/
inductive Decoded where
  | ok (i : Instr)
  | rejected (e : DecodeError)
deriving DecidableEq, Repr

/-- The bit patterns the table gives: a command report, what a `HidReceive` brought (`none`: no report), a driver request
(2-bit operation code and operands), an LED pair {f, c}. -/
inductive Encoded where
  | cmd (r : Report)
  | rsp (rx : Option Report)
  | req (code : BitVec 2) (ta : Byte) (wd : List Byte) (rl : Nat)
  | pair (fc : BitVec 2)
deriving DecidableEq, Repr

/-! ### Fields -/

/-- The operand of `configure` and SET_SPEED, least significant byte first (R46, R62, R73 (d)). -/
def speedBytes (v : BitVec 32) : List Byte :=
  [v.extractLsb' 0 8, v.extractLsb' 8 8, v.extractLsb' 16 8, v.extractLsb' 24 8]

/-- The 32-bit value of four bytes, least significant first (R46). -/
def speedOf (b0 b1 b2 b3 : Byte) : BitVec 32 := b3 ++ b2 ++ b1 ++ b0

/-- `CmdCode(op)` (R72). -/
def cmdCode (c : Config) : OpCode → Byte
  | .configure => c.cmdSetSpeed
  | .write => c.cmdI2cWrite
  | .read => c.cmdI2cRead
  | .writeRead => c.cmdI2cWriteRead

/-- The 2-bit operation code (R72). -/
def opBits : OpCode → BitVec 2
  | .configure => 0#2
  | .write => 1#2
  | .read => 2#2
  | .writeRead => 3#2

/-- The command report `[code, ta, |w|, rl] ++ w`, filled with `PAD` to `REPORT_SIZE` bytes (R60, R73 (c), R93).
A length byte holds the low eight bits of the length (log 4, DESIGN CHOICE: it shows only where `REPORT_SIZE` > 259). -/
def commandReport (c : Config) (code ta : Byte) (w : List Byte) (rl : Byte) : Report :=
  [code, ta, BitVec.ofNat 8 w.length, rl] ++ w ++ List.replicate (c.maxPayload - w.length) c.pad

/-- The status request report (R66, R94). -/
def statusReport (c : Config) : Report := c.cmdGetStatus :: List.replicate (c.reportSize - 1) c.pad

/-- The data request report (R67, R95). -/
def dataReport (c : Config) : Report := c.cmdGetData :: List.replicate (c.reportSize - 1) c.pad

/-- Every byte is `PAD`. -/
def allPad (c : Config) (bs : List Byte) : Bool := bs.all (fun b => b == c.pad)

/-! ### Decoding -/

/-- The payload a write length selects, where it fits the report and the rest is pad (R60). -/
def payloadOf (c : Config) (wl : Byte) (body : List Byte) : Except DecodeError (List Byte) :=
  if c.maxPayload < wl.toNat then .error .writeTooLong
  else if allPad c (body.drop wl.toNat) then .ok (body.take wl.toNat)
  else .error .padNotZero

/-- Decode a command report by the match and mask of its row (R60, R62 to R67). -/
def decodeCommand (c : Config) (r : Report) : Decoded :=
  if r.length ≠ c.reportSize then .rejected .wrongLength
  else match r with
  | code :: ta :: wl :: rl :: body =>
    if code = c.cmdSetSpeed then
      match body with
      | b0 :: b1 :: b2 :: b3 :: tail =>
        if ta = 0#8 ∧ wl = 4#8 ∧ rl = 0#8 then
          if allPad c tail then .ok (.setSpeed (speedOf b0 b1 b2 b3)) else .rejected .padNotZero
        else .rejected .fixedFieldMismatch
      | _ => .rejected .wrongLength
    else if code = c.cmdI2cWrite then
      if ta.msb then .rejected .targetBit7
      else if rl ≠ 0#8 then .rejected .fixedFieldMismatch
      else match payloadOf c wl body with
        | .ok wd => .ok (.i2cWrite (ta.setWidth 7) wd)
        | .error e => .rejected e
    else if code = c.cmdI2cRead then
      if ta.msb then .rejected .targetBit7
      else if wl ≠ 0#8 then .rejected .fixedFieldMismatch
      else if allPad c body then .ok (.i2cRead (ta.setWidth 7) rl)
      else .rejected .padNotZero
    else if code = c.cmdI2cWriteRead then
      if ta.msb then .rejected .targetBit7
      else match payloadOf c wl body with
        | .ok wd => .ok (.i2cWriteRead (ta.setWidth 7) wd rl)
        | .error e => .rejected e
    else if code = c.cmdGetStatus then
      if ta = 0#8 ∧ wl = 0#8 ∧ rl = 0#8 then
        if allPad c body then .ok .getStatus else .rejected .padNotZero
      else .rejected .fixedFieldMismatch
    else if code = c.cmdGetData then
      if ta = 0#8 ∧ wl = 0#8 ∧ rl = 0#8 then
        if allPad c body then .ok .getData else .rejected .padNotZero
      else .rejected .fixedFieldMismatch
    else .rejected .unknownCode
  | _ => .rejected .wrongLength

/-- The status row a state byte selects (R69); `none` for an undefined state. -/
def statusRow (c : Config) (state : Byte) (rest : List Byte) : Option Instr :=
  if state = c.stInProgress then some (.rspStatusInProgress rest)
  else if state = c.stComplete then some (.rspStatusComplete rest)
  else if state = c.stErrNack then some (.rspStatusErrNack rest)
  else if state = c.stErrTimeout then some (.rspStatusErrTimeout rest)
  else none

/-- The response row whose match and mask the bytes of a received report fit; RSP_NOANSWER where none does (R68 to R71).
Which row COUNTS as an answer depends on the command being answered: that is `classify` in Machine/Operands.lean (log 11). -/
def decodeResponse (c : Config) (rx : Option Report) : Instr :=
  match rx with
  | none => .rspNoAnswer none
  | some r =>
    if r.length ≠ c.reportSize then .rspNoAnswer (some r)
    else match r with
    | echo :: result :: b2 :: b3 :: tail =>
      if echo = c.cmdGetStatus then
        if result = c.resOk then (statusRow c b2 (b3 :: tail)).getD (.rspNoAnswer (some r))
        else .rspNoAnswer (some r)
      else if echo = c.cmdGetData then
        if result = c.resOk then .rspData b2 b3 tail
        else if result = c.resNoData then .rspNoData (b2 :: b3 :: tail)
        else .rspNoAnswer (some r)
      else if result = c.resOk then .rspAccepted echo (b2 :: b3 :: tail)
      else if result = c.resBusy then .rspBusy echo (b2 :: b3 :: tail)
      else .rspNoAnswer (some r)
    | _ => .rspNoAnswer (some r)

/-- Decode a driver request (R72): the fields the operation does not use must be absent. -/
def decodeRequest (code : BitVec 2) (ta : Byte) (wd : List Byte) (rl : Nat) : Decoded :=
  if code = 0#2 then
    match wd with
    | [b0, b1, b2, b3] =>
      if ta = 0#8 ∧ rl = 0 then .ok (.configure (speedOf b0 b1 b2 b3)) else .rejected .fixedFieldMismatch
    | _ => .rejected .wrongLength
  else if code = 1#2 then
    if rl = 0 then .ok (.write ta wd) else .rejected .fixedFieldMismatch
  else if code = 2#2 then
    if wd = [] then .ok (.read ta rl) else .rejected .fixedFieldMismatch
  else .ok (.writeRead ta wd rl)

/-- Decode an LED pair {f, c} (R77). -/
def decodePair (fc : BitVec 2) : Instr :=
  if fc = 0b11#2 then .decodeEmpty
  else if fc = 0b10#2 then .decodeCharging
  else if fc = 0b01#2 then .decodeFull
  else .decodeError

/-- Decode any bit pattern of the table. -/
def decode (c : Config) : Encoded → Decoded
  | .cmd r => decodeCommand c r
  | .rsp rx => .ok (decodeResponse c rx)
  | .req code ta wd rl => decodeRequest code ta wd rl
  | .pair fc => .ok (decodePair fc)

/-- Decode a report whose direction is not known: a command where it is one, else a response. The table gives some words to
rows of both directions (0x31000000 is GET_DATA and a RSP_DATA of no bytes); the command is taken (log 11). -/
def decodeReport (c : Config) (r : Report) : Instr :=
  match decodeCommand c r with
  | .ok i => i
  | .rejected _ => decodeResponse c (some r)

/-- The report of a table word: four header bytes in reading order, byte 0 in bits 31..24, all later bytes zero. -/
def tableReport (c : Config) (w : Nat) : Report :=
  [BitVec.ofNat 8 (w / 2 ^ 24), BitVec.ofNat 8 (w / 2 ^ 16), BitVec.ofNat 8 (w / 2 ^ 8), BitVec.ofNat 8 w]
    ++ List.replicate (c.reportSize - 4) 0x00#8

/-- The instruction the decoder reads from a table word; the table's numbered rows have 32 bits, and the codes of the
table are the defaults of R5. -/
def decodeTableWord (nbits w : Nat) : Option Instr :=
  if nbits = 32 then some (decodeReport {} (tableReport {} w)) else none

/-! ### Encoding -/

/-- The bit pattern of an instruction, from the same tables; `none` for the hardwired operations (PSEUDO, SEQ, SLOT, QUERY),
to which the table gives no bits (R57). -/
def encode (c : Config) : Instr → Option Encoded
  | .setSpeed hz => some (.cmd (commandReport c c.cmdSetSpeed 0#8 (speedBytes hz) 0#8))
  | .i2cWrite ta wd => some (.cmd (commandReport c c.cmdI2cWrite (ta.setWidth 8) wd 0#8))
  | .i2cRead ta rl => some (.cmd (commandReport c c.cmdI2cRead (ta.setWidth 8) [] rl))
  | .i2cWriteRead ta wd rl => some (.cmd (commandReport c c.cmdI2cWriteRead (ta.setWidth 8) wd rl))
  | .getStatus => some (.cmd (statusReport c))
  | .getData => some (.cmd (dataReport c))
  | .rspAccepted echo rest => some (.rsp (some (echo :: c.resOk :: rest)))
  | .rspBusy echo rest => some (.rsp (some (echo :: c.resBusy :: rest)))
  | .rspStatusInProgress rest => some (.rsp (some (c.cmdGetStatus :: c.resOk :: c.stInProgress :: rest)))
  | .rspStatusComplete rest => some (.rsp (some (c.cmdGetStatus :: c.resOk :: c.stComplete :: rest)))
  | .rspStatusErrNack rest => some (.rsp (some (c.cmdGetStatus :: c.resOk :: c.stErrNack :: rest)))
  | .rspStatusErrTimeout rest => some (.rsp (some (c.cmdGetStatus :: c.resOk :: c.stErrTimeout :: rest)))
  | .rspData state n data => some (.rsp (some (c.cmdGetData :: c.resOk :: state :: n :: data)))
  | .rspNoData rest => some (.rsp (some (c.cmdGetData :: c.resNoData :: rest)))
  | .rspNoAnswer rx => some (.rsp rx)
  | .configure hz => some (.req (opBits .configure) 0#8 (speedBytes hz) 0)
  | .write ta wd => some (.req (opBits .write) ta wd 0)
  | .read ta rl => some (.req (opBits .read) ta [] rl)
  | .writeRead ta wd rl => some (.req (opBits .writeRead) ta wd rl)
  | .decodeEmpty => some (.pair 0b11#2)
  | .decodeCharging => some (.pair 0b10#2)
  | .decodeFull => some (.pair 0b01#2)
  | .decodeError => some (.pair 0b00#2)
  | .initDir => none
  | .initPu => none
  | .initExpander => none
  | .readPort => none
  | .poll => none
  | .boot => none
  | .openBridge => none
  | .reconnect => none
  | .stop => none
  | .reset => none
  | .debounce _ _ => none
  | .publish _ => none
  | .dispatch _ => none
  | .notify _ _ _ _ => none
  | .getSnapshot => none

end Sys2Proof
end

