-- ==== Sys2Proof/Machine/Operands.lean ====
section
/-! DEFINITION. Operand forms: operand assembly (R73), the requests of the expander operations (R42 to R44, R131 to R133),
the reports of the operation in flight (R93 to R95), and the classification of a response (R71). -/

namespace Sys2Proof.Machine

/-! ### Requests -/

/-- `HasRead(op)` (R72). -/
def hasRead (op : OpCode) : Bool :=
  match op with
  | .configure => false
  | .write => false
  | .read => true
  | .writeRead => true

/-- `HasWrite(op)` (R72). -/
def hasWrite (op : OpCode) : Bool :=
  match op with
  | .configure => false
  | .write => true
  | .read => false
  | .writeRead => true

/-- `ArgsOK(op, ta, w, r)`: the bounds of R91 (a). -/
def argsOk (c : Config) (q : Request) : Bool :=
  targetOk q.ta &&
  match q.op with
  | .configure => decide (q.w.length = 4 ∧ q.ta = 0#8 ∧ q.r = 0)
  | .write => payloadOk c q.w && decide (q.r = 0)
  | .read => decide (q.w.length = 0) && readLenOk c q.r
  | .writeRead => payloadOk c q.w && readLenOk c q.r

/-- The request of `configure(v)` (R113). -/
def configureRequest (v : BitVec 32) : Request := { op := .configure, ta := 0#8, w := speedBytes v, r := 0 }

/-- The request of `write(ta, w)` (R114). -/
def writeRequest (ta : Byte) (w : List Byte) : Request := { op := .write, ta := ta, w := w, r := 0 }

/-- The request of `read(ta, n)` (R115). -/
def readRequest (ta : Byte) (n : Nat) : Request := { op := .read, ta := ta, w := [], r := n }

/-- The request of `writeRead(ta, w, n)` (R116). -/
def writeReadRequest (ta : Byte) (w : List Byte) (n : Nat) : Request := { op := .writeRead, ta := ta, w := w, r := n }

/-- The two halves of a 16-bit register value, port A half first (R44, R46). -/
def halves (v : BitVec 16) : List Byte := [v.extractLsb' 0 8, v.extractLsb' 8 8]

/-- `MemRead(reg, n)` (R43). -/
def memRead (c : Config) (reg : Byte) (n : Nat) : Request := writeReadRequest c.expAddr [reg] n

/-- `MemWrite(reg, n, b)` (R44). -/
def memWrite (c : Config) (reg : Byte) (b : List Byte) : Request := writeRequest c.expAddr (reg :: b)

/-- The request of `INIT_DIR` (R131). -/
def initDirRequest (c : Config) : Request := memWrite c c.regDir (halves c.dirAllInput)

/-- The request of `INIT_PU` (R132). -/
def initPuRequest (c : Config) : Request := memWrite c c.regPullup (halves c.pullupAllOn)

/-- The request of `READPORT` (R133). -/
def readPortRequest (c : Config) : Request := memRead c c.regPort 2

/-! ### Reports of the operation in flight -/

/-- The command report of the operation in flight, `CmdReport(op, ta, wd[0..wl-1], rl)` (R93). -/
def inFlightReport (c : Config) (b : BridgeRegs) : Report :=
  commandReport c (cmdCode c b.op) (b.ta.setWidth 8) (b.wd.take b.wl) (BitVec.ofNat 8 b.rl)

/-- The report the exchange that is next sends (R93 to R95), and `none` where no exchange is next: no operation is in flight,
or the precondition `k` < `STATUS_POLL_MAX` of R102 fails. -/
def nextReport (c : Config) (b : BridgeRegs) : Option Report :=
  match b.bst with
  | .bCmd => some (inFlightReport c b)
  | .bStat => if b.k < c.statusPollMax then some (statusReport c) else none
  | .bData => some (dataReport c)
  | .bIdle => none
  | .bClosed => none

/-! ### Responses -/

/-- The transfer states of a status response (R69). -/
inductive TransferState where
  | inProgress
  | complete
  | errNack
  | errTimeout
deriving DecidableEq, Repr, Inhabited

/-- The result of one exchange (R96). -/
inductive XchgResult where
  | ioErr
  | badSize
  | noAnswer
  | accepted
  | busy
  | status (st : TransferState)
  | data (n : Byte) (bytes : List Byte)
  | noData
deriving DecidableEq, Repr, Inhabited

/-- The transfer state of a `state` byte (R69). -/
def transferState (c : Config) (b : Byte) : Option TransferState :=
  if b = c.stInProgress then some .inProgress
  else if b = c.stComplete then some .complete
  else if b = c.stErrNack then some .errNack
  else if b = c.stErrTimeout then some .errTimeout
  else none

/-- `Classify(rx, code)` (R71); a block that is not `REPORT_SIZE` bytes is NoAnswer (93 U15). -/
def classify (c : Config) (rx : Report) (code : Byte) : XchgResult :=
  if rx.length ≠ c.reportSize then .noAnswer
  else match rx with
  | echo :: result :: state :: n :: bytes =>
    if echo ≠ code then .noAnswer
    else if code = c.cmdGetStatus then
      match transferState c state with
      | some st => if result = c.resOk then .status st else .noAnswer
      | none => .noAnswer
    else if code = c.cmdGetData then
      if result = c.resOk then .data n bytes
      else if result = c.resNoData then .noData
      else .noAnswer
    else if code = c.cmdSetSpeed ∨ code = c.cmdI2cWrite ∨ code = c.cmdI2cRead
        ∨ code = c.cmdI2cWriteRead then
      if result = c.resOk then .accepted
      else if result = c.resBusy then .busy
      else .noAnswer
    else .noAnswer
  | _ => .noAnswer

/-! ### The PortSnapshot and its pins -/

/-- `PORT` = {rd[1], rd[0]} (R45, R73 (a), R134). -/
def assemblePort (rd : List Byte) : BitVec 16 := rd.getD 1 0#8 ++ rd.getD 0 0#8

/-- `charging_bit` of slot i, `PORT[PIN_CHG[i]]` (R73 (b), R136). -/
def chargingBit (c : Config) (i : Fin 6) (port : BitVec 16) : Bool := port.getLsbD (c.pinChg.get i).val

/-- `full_bit` of slot i, `PORT[PIN_FULL[i]]` (R73 (b), R136). -/
def fullBit (c : Config) (i : Fin 6) (port : BitVec 16) : Bool := port.getLsbD (c.pinFull.get i).val

/-- `Decode(c, f)` (R77, R146): both bits active-low. -/
def decodeLeds (c f : Bool) : SlotState :=
  match c, f with
  | true, true => .empty
  | false, true => .charging
  | true, false => .full
  | false, false => .error

end Sys2Proof.Machine
end

