-- ==== Sys2Proof/Machine/Ops.lean ====
section
/-! DEFINITION. The shared operations: sampling the outside world, the transport calls (R96, R205 to R208), raising an error
and returning from it (R175, R178, R179, R190 to R198), reset (R215, R216), the query (R165). -/

namespace Sys2Proof.Machine

/-! ### The outside world -/

/-- The input lines of the next step: the first listed ones, else a free value (log 2). -/
def World.sample (w : World) : World :=
  match w.lines with
  | l :: ls => { w with inp := l, lines := ls }
  | [] => { w with inp := Config.freeLines w.drawn, drawn := w.drawn + 1 }

/-- ENV's answer to the next `HidOpen`. -/
def World.openAnswer (w : World) : OpenAnswer :=
  match w.opens with
  | a :: _ => a
  | [] => Config.freeOpen w.drawn

/-- The world once that answer is given. -/
def World.afterOpen (w : World) : World :=
  match w.opens with
  | _ :: as => { w with opens := as }
  | [] => { w with drawn := w.drawn + 1 }

/-- ENV's answers to the next exchange. -/
def World.xchgAnswer (w : World) : XchgAnswer :=
  match w.xchgs with
  | a :: _ => a
  | [] => Config.freeXchg w.drawn

/-- The world once those answers are given. -/
def World.afterXchg (w : World) : World :=
  match w.xchgs with
  | _ :: as => { w with xchgs := as }
  | [] => { w with drawn := w.drawn + 1 }

/-- A step begins: the input lines are sampled (R28). -/
def sampleInputs (s : State) : State := { s with world := s.world.sample }

/-- The state in which the next exchange's answers have been taken from the world. -/
def takeXchg (s : State) : State := { s with world := s.world.afterXchg }

/-! ### Transport calls -/

/-- The calls one exchange appends to `HID` (R96): one `HidSend`, and a `HidReceive` only where the send succeeded. -/
def xchgCalls (timeout : Nat) (tx : Report) (a : XchgAnswer) : List HidCall :=
  match a.send with
  | .ok => [.sent tx .ok, .received timeout a.recv]
  | .ioError => [.sent tx .ioError]
  | .invalidReportSize => [.sent tx .invalidReportSize]

/-- What one exchange returns (R96). -/
def xchgResult (c : Config) (a : XchgAnswer) (code : Byte) : XchgResult :=
  match a.send with
  | .ioError => .ioErr
  | .invalidReportSize => .badSize
  | .ok =>
    match a.recv with
    | none => .noAnswer
    | some rx => classify c rx code

/-- `HidClose(); bst <- B_CLOSED`, only when a handle is held (R206). -/
def hidClose (s : State) : State :=
  if s.brg.bst = .bClosed then s
  else { s with
    brg := { s.brg with bst := .bClosed }
    hid := s.hid ++ [.closed]
    world := { s.world with handle := false } }

/-! ### Registers -/

/-- `sst <- x`. -/
def setSst (x : SeqState) (s : State) : State := { s with seq := { s.seq with sst := x } }

/-- `rc <- b`. -/
def setRc (b : Bool) (s : State) : State := { s with seq := { s.seq with rc := b } }

/-- `BRG`'s registers replaced. -/
def setBrg (b : BridgeRegs) (s : State) : State := { s with brg := b }

/-- `PORT <- v` (R134). -/
def setPort (v : BitVec 16) (s : State) : State := { s with port := v }

/-! ### Raising an error, and returning from it -/

/-- `MarkFailed(cls, det)` (R191): `SNAP.stale <- 1; ERR <- (cls, det)`, nothing else. -/
def markFailed (cls : ErrClass) (det : BusOutcome) (s : State) : State :=
  { s with
    seq := { s.seq with err := ⟨cls, det⟩ }
    slt := { s.slt with snap := { s.slt.snap with stale := true } } }

/-- `Die()` (R179): close if a handle is held, enter the persistent error state. -/
def die (s : State) : State := setSst .sDead (hidClose s)

/-- `FatalIO()` (R178): close; a second fatal error in the reconnect pass is final, the first gets one pass. -/
def fatalIO (s : State) : State :=
  if s.seq.rc then setSst .sDead (hidClose s)
  else setSst .sOpen (setRc true (hidClose s))

/-- The column "then" of R190: where an error of a class goes. -/
def errorExit (cls : ErrClass) (s : State) : State :=
  match cls with
  | .noErr => s
  | .deviceNotFound => die s
  | .busTimeout => setSst .sIdle s
  | .busError => setSst .sIdle s
  | .initError => die s
  | .invalidReportSize => die s
  | .ioError => fatalIO s
  | .invalidArg => die s

/-- `raise E(det)` (R190): the one operation by which the block takes an error. -/
def raise (cls : ErrClass) (det : BusOutcome) (s : State) : State := errorExit cls (markFailed cls det s)

/-- The return from an error (R175, R203): `ERR <- (NONE, OK)`; `SNAP.stale` is cleared by the publication of the same
step. -/
def clearError (s : State) : State := { s with seq := { s.seq with err := ⟨.noErr, .ok⟩ } }

/-! ### Reset and query -/

/-- Reset (R215, R216, R217): close a held handle, then every register at its reset value and the traces empty; the static
inputs are sampled (R26), the other parameters and the outside world stay (log 3, log 14). -/
def resetBlock (s : State) : State :=
  { State.reset with
    cfg := { s.cfg with debounceN := s.world.inp.debounceN, notifyEn := s.world.inp.notifyEn }
    brg := BridgeRegs.reset s.cfg
    world := (hidClose s).world }

/-- What a query returns (R165): `SNAP`, with `ERR` and `LINK` beside it, from one instant. -/
def queryReply (s : State) : QueryReply := { snap := s.slt.snap, err := s.seq.err, link := s.link }

/-- A query is answered (R165): no register of the block changes. -/
def answerQuery (s : State) : State :=
  { s with world := { s.world with replies := s.world.replies ++ [queryReply s] } }

end Sys2Proof.Machine
end

