-- ==== Sys2Proof/Machine/Bridge.lean ====
section
/-! DEFINITION. The bridge controller FSM (file 40): start (R92), the reactions of `B_CMD`, `B_STAT`, `B_DATA` (R97 to R112),
one exchange, and an operation run to its outcome (R90, R117). -/

namespace Sys2Proof.Machine

/-- Bytes `new` written over the beginning of `old`. -/
def overwrite (new old : List Byte) : List Byte := new ++ old.drop new.length

/-- A length as the registers `wl` and `rl` hold it, in `Config.lenWidth` bits (R15). -/
def lenReg (c : Config) (n : Nat) : Nat := n % 2 ^ c.lenWidth

/-- Start of an admitted request (R92). -/
def startOp (c : Config) (q : Request) (b : BridgeRegs) : BridgeRegs :=
  { b with
    op := q.op, ta := q.ta.setWidth 7, wl := lenReg c q.w.length, wd := overwrite q.w b.wd,
    rl := lenReg c q.r, tries := 0#1, bst := .bCmd }

/-- `Finish(o)` (R108, R111). -/
def finish (o : BusOutcome) (b : BridgeRegs) : BridgeRegs := { b with res := o, bst := .bIdle }

/-- `o` ∈ `RETRY_ON` (R109). -/
def retryable (r : RetrySet) (o : BusOutcome) : Bool :=
  match o with
  | .timeout => r.timeout
  | .nack => r.nack
  | .busy => r.busy
  | .lenMismatch => r.lenMismatch
  | .ok => false
  | .ioErr => false
  | .badSize => false
  | .badArg => false

/-- `AttemptFail(o)` (R109): retry (R110) or finish (R111). -/
def attemptFail (c : Config) (o : BusOutcome) (b : BridgeRegs) : BridgeRegs :=
  if retryable c.retryOn o = true ∧ b.tries.toNat < Config.retryMax then
    { b with tries := b.tries + 1#1, bst := .bCmd }
  else finish o b

/-- The reaction in `B_CMD` (R98 to R101). The last three results cannot come from classifying against a command code (R71);
they are no answer to it. -/
def afterCommand (c : Config) (x : XchgResult) (b : BridgeRegs) : BridgeRegs :=
  match x with
  | .noAnswer => attemptFail c .timeout b
  | .busy => attemptFail c .busy b
  | .accepted => { b with k := 0, bst := .bStat }
  | .ioErr => finish .ioErr b
  | .badSize => finish .badSize b
  | .status _ => attemptFail c .timeout b
  | .data _ _ => attemptFail c .timeout b
  | .noData => attemptFail c .timeout b

/-- A poll that shows no end state (R103), `k` already incremented. -/
def stillPolling (c : Config) (b : BridgeRegs) : BridgeRegs :=
  if b.k = c.statusPollMax then attemptFail c .timeout b else b

/-- The reaction in `B_STAT` (R103 to R106, R112), `k` already incremented. The last four results cannot come from classifying
against the status code (R71); they are no answer to it. -/
def afterStatus (c : Config) (x : XchgResult) (b : BridgeRegs) : BridgeRegs :=
  match x with
  | .noAnswer => stillPolling c b
  | .status .inProgress => stillPolling c b
  | .status .complete => if hasRead b.op then { b with bst := .bData } else finish .ok b
  | .status .errNack => attemptFail c .nack b
  | .status .errTimeout => attemptFail c .timeout b
  | .ioErr => finish .ioErr b
  | .badSize => finish .badSize b
  | .accepted => stillPolling c b
  | .busy => stillPolling c b
  | .data _ _ => stillPolling c b
  | .noData => stillPolling c b

/-- The reaction in `B_DATA` (R107). The last three results cannot come from classifying against the data code (R71); they are
no answer to it. -/
def afterData (c : Config) (x : XchgResult) (b : BridgeRegs) : BridgeRegs :=
  match x with
  | .data n bytes =>
    if n.toNat = b.rl then finish .ok { b with rd := overwrite (bytes.take b.rl) b.rd }
    else attemptFail c .lenMismatch b
  | .noData => attemptFail c .lenMismatch b
  | .noAnswer => attemptFail c .timeout b
  | .ioErr => finish .ioErr b
  | .badSize => finish .badSize b
  | .accepted => attemptFail c .timeout b
  | .busy => attemptFail c .timeout b
  | .status _ => attemptFail c .timeout b

/-- `k <- k + 1` in `Config.kWidth` bits (R17, R102). -/
def countPoll (c : Config) (b : BridgeRegs) : BridgeRegs := { b with k := (b.k + 1) % 2 ^ c.kWidth }

/-- The FSM's reaction to ENV's answers, by state (R97, R102, R107); `k` is incremented before the result is examined. -/
def bridgeReact (c : Config) (a : XchgAnswer) (b : BridgeRegs) : BridgeRegs :=
  match b.bst with
  | .bCmd => afterCommand c (xchgResult c a (cmdCode c b.op)) b
  | .bStat => afterStatus c (xchgResult c a c.cmdGetStatus) (countPoll c b)
  | .bData => afterData c (xchgResult c a c.cmdGetData) b
  | .bIdle => b
  | .bClosed => b

/-- One exchange of the operation in flight, answered by `a` (R90, R96): `HID` and the registers of `BRG` alone change. -/
def bridgeExchange (a : XchgAnswer) (s : State) : State :=
  match nextReport s.cfg s.brg with
  | some tx => { s with brg := bridgeReact s.cfg a s.brg, hid := s.hid ++ xchgCalls s.cfg.rxTimeout tx a }
  | none => s

/-- One exchange, answered by the world. -/
def bridgeStep (s : State) : State := bridgeExchange s.world.xchgAnswer (takeXchg s)

/-- Whether an exchange is next. -/
def exchangeNext (s : State) : Bool := (nextReport s.cfg s.brg).isSome

/-- At most `n` exchanges, until the operation has ended. -/
def runBridge : Nat → State → State
  | 0, s => s
  | n + 1, s => if exchangeNext s then runBridge n (bridgeStep s) else s

/-- The most exchanges an operation can make (R118): 1 + `RETRY_MAX` attempts of 1 + `STATUS_POLL_MAX` + 1 exchanges. -/
def opFuel (c : Config) : Nat := (1 + Config.retryMax) * (c.statusPollMax + 2)

/-- `DriverOp` (R117) on an admitted request: start, then exchanges to the outcome. -/
def driverOp (q : Request) (s : State) : State := runBridge (opFuel s.cfg) (setBrg (startOp s.cfg q s.brg) s)

/-- A driver request of a caller (R91): not admitted unless `bst` = `B_IDLE` (b); refused with BADARG where its bounds fail (a);
else the whole operation. R91 ranks neither ground above the other: that a request which meets both is not admitted is the
model's choice (log 27, DESIGN CHOICE). -/
def request (q : Request) (s : State) : Host.Outcome State Fault Refusal :=
  if s.brg.bst ≠ .bIdle then .refused .notAdmitted
  else if argsOk s.cfg q then .next (driverOp q s)
  else .refused .badArg

end Sys2Proof.Machine
end

