-- ==== Sys2Proof/Machine/SlotEngine.lean ====
section
/-! DEFINITION. The slot state engine (file 42): decode, debounce, publish, dispatch, the FULL-edge detector, the cycle. -/

namespace Sys2Proof.Machine

/-- The decoder's output (R146) put where `SlotCycle` reads it (log 16). -/
def setDecoded (d : SlotState) (s : State) : State := { s with scratch := { s.scratch with dec := d } }

/-- The observation count of a decoded state that differs from the committed one (R150, R151). -/
def observations (d cand : SlotState) (cnt : BitVec 8) : BitVec 8 :=
  if d = cand ∧ 0 < cnt.toNat then cnt + 1#8 else 1#8

/-- The registers of one slot, with the event handed to the dispatch phase. -/
structure SlotStep where
  commit : SlotState
  cand   : SlotState
  cnt    : BitVec 8
  ev     : Option (SlotState × SlotState)
deriving DecidableEq, Repr

/-- `Debounce(i, d)` on the three registers of slot i (R148 to R152), with `N` = `DEBOUNCE_N`. -/
def debounceOne (n : BitVec 8) (d commit cand : SlotState) (cnt : BitVec 8) : SlotStep :=
  if d = commit then { commit := commit, cand := d, cnt := 0#8, ev := none }
  else if n.toNat ≤ (observations d cand cnt).toNat then
    { commit := d, cand := d, cnt := 0#8, ev := some (commit, d) }
  else { commit := commit, cand := d, cnt := observations d cand cnt, ev := none }

/-- `ev[i] <- Debounce(i, d)` (R145, R148). -/
def debounceSlot (i : Fin 6) (d : SlotState) (s : State) : State :=
  let r := debounceOne s.cfg.debounceN d (s.slt.commit.get i) (s.slt.cand.get i) (s.slt.cnt.get i)
  { s with
    slt := { s.slt with
      commit := s.slt.commit.set i r.commit, cand := s.slt.cand.set i r.cand, cnt := s.slt.cnt.set i r.cnt }
    scratch := { s.scratch with ev := s.scratch.ev.set i r.ev } }

/-- One pass of the first loop of `SlotCycle` (R145): multiplexer, decoder, debounce of slot i. -/
def slotPass (s : State) (i : Fin 6) : State :=
  let d := decodeLeds (chargingBit s.cfg i s.port) (fullBit s.cfg i s.port)
  debounceSlot i d (setDecoded d s)

/-- `Publish(t)` (R155): all six states, the time and `stale` in one step. -/
def publishSnapshot (t : Time) (s : State) : State :=
  { s with slt := { s.slt with snap := { st := s.slt.commit, ts := t, stale := false } } }

/-- The FULL-edge detector (R162, R164): a notify request for an event into FULL, when enabled. -/
def notifyGate (e : TransitionEvent) (s : State) : State :=
  if s.cfg.notifyEn = true ∧ e.new = .full then
    { s with out := s.out ++ [.nt { slot := e.slot, summary := s.slt.commit, ts := e.ts }] }
  else s

/-- Emission of slot i's event, if its debounce handed one over, then its notify request (R156, R161). -/
def dispatchSlot (t : Time) (s : State) (i : Fin 6) : State :=
  match s.scratch.ev.get i with
  | none => s
  | some (prev, new) =>
    notifyGate ⟨i, prev, new, t⟩ { s with out := s.out ++ [.ev ⟨i, prev, new, t⟩] }

/-- The array `ev` is dropped when the cycle ends: it is no state between steps (R10, log 16). -/
def clearEvents (s : State) : State := { s with scratch := { s.scratch with ev := Six.fill none } }

/-- `Dispatch(ev, t)` (R156): the slots in ascending order. -/
def dispatchEvents (t : Time) (s : State) : State := clearEvents (slotOrder.foldl (dispatchSlot t) s)

/-- `SlotCycle(PORT, t)` (R145). -/
def slotCycle (t : Time) (s : State) : State :=
  dispatchEvents t (publishSnapshot t (slotOrder.foldl slotPass s))

end Sys2Proof.Machine
end

