-- ==== Sys2Proof/Machine/Sequencer.lean ====
section
/-! DEFINITION. The sequencer (file 43): start-up, the poll cycle, reactions to operation outcomes, what the block does next. -/

namespace Sys2Proof.Machine

/-- The error class of a failed operation of the start-up pass (R184). -/
def bootErrClass (o : BusOutcome) : ErrClass :=
  match o with
  | .ok => .noErr
  | .ioErr => .ioError
  | .badSize => .invalidReportSize
  | .badArg => .invalidArg
  | .timeout => .initError
  | .nack => .initError
  | .busy => .initError
  | .lenMismatch => .initError

/-- `BootFail(o)` (R184), for `o` ≠ OK. -/
def bootFail (o : BusOutcome) (s : State) : State := raise (bootErrClass o) o s

/-- The reaction to a failed `READPORT` (R176, R177), for `o` ≠ OK: `raise` with the class `ErrOf(o)`. -/
def pollFail (o : BusOutcome) (s : State) : State := raise (errOf o) o s

/-- The reaction to a successful `READPORT` (R175): capture, slot cycle with `now` sampled once, clear `ERR`. -/
def pollDone (s : State) : State :=
  setSst .sIdle (clearError (slotCycle s.now (setPort (assemblePort s.brg.rd) s)))

/-- The sequencer's reaction to the end of the operation of its present state (R171 to R173, R175 to R177, R184). In the
other states the sequencer has no operation. -/
def react (s : State) : State :=
  match s.seq.sst with
  | .sConfig => if s.brg.res = .ok then setSst .sInitDir s else bootFail s.brg.res s
  | .sInitDir => if s.brg.res = .ok then setSst .sInitPu s else bootFail s.brg.res s
  | .sInitPu => if s.brg.res = .ok then setSst .sIdle (setRc false s) else bootFail s.brg.res s
  | .sRead => if s.brg.res = .ok then pollDone s else pollFail s.brg.res s
  | .sOpen => s
  | .sIdle => s
  | .sDead => s
  | .sOff => s

/-- The reaction happens in the same step as the operation's last exchange (file 43, 92 D2). -/
def settle (s : State) : State := if s.brg.bst = .bIdle then react s else s

/-- One exchange answered by `a`, with the sequencer's reaction if the operation ends with it. -/
def answeredStep (a : XchgAnswer) (s : State) : State := settle (bridgeExchange a s)

/-- One exchange answered by the world, with the sequencer's reaction. -/
def exchangeStep (s : State) : State := settle (bridgeStep s)

/-- The sequencer starts an operation of its own (R92); a request R91 (a) refuses raises InvalidArg (R177, R184, R198). -/
def startOwn (q : Request) (s : State) : State :=
  if argsOk s.cfg q then setBrg (startOp s.cfg q s.brg) s else raise .invalidArg .badArg s

/-- The operation of the present sequencer state is started (R171, R172, R173; R174 for `S_READ`). -/
def startStep (s : State) : State :=
  match s.seq.sst with
  | .sConfig => startOwn (configureRequest s.cfg.busSpeedHz) s
  | .sInitDir => startOwn (initDirRequest s.cfg) s
  | .sInitPu => startOwn (initPuRequest s.cfg) s
  | .sRead => startOwn (readPortRequest s.cfg) s
  | .sOpen => s
  | .sIdle => s
  | .sDead => s
  | .sOff => s

/-- A honoured `tick` (R174): `sst <- S_READ` and the `READPORT` operation is started, in one step. -/
def beginPoll (s : State) : State := startStep (setSst .sRead s)

/-- `OPEN` (R170). -/
def openStep (s : State) : State :=
  let s1 := { s with hid := s.hid ++ [.opened s.world.openAnswer], world := s.world.afterOpen }
  match s.world.openAnswer with
  | .ok => setSst .sConfig
      { s1 with brg := { s1.brg with bst := .bIdle }, world := { s1.world with handle := true } }
  | .deviceNotFound => raise .deviceNotFound .ok s1

/-- `STOP` (R181), in `S_IDLE`. -/
def stopStep (s : State) : State := setSst .sOff (hidClose s)

/-- The sequencer is inside a start-up pass. -/
def inPass (s : State) : Bool :=
  match s.seq.sst with
  | .sConfig => true
  | .sInitDir => true
  | .sInitPu => true
  | .sOpen => false
  | .sIdle => false
  | .sRead => false
  | .sDead => false
  | .sOff => false

/-- The block moves by itself: an exchange of the sequencer's operation is next, or an operation of the pass is to start. -/
def ownMoveNext (s : State) : Bool :=
  if inPass s then exchangeNext s || decide (s.brg.bst = .bIdle)
  else decide (s.seq.sst = .sRead) && exchangeNext s

/-- That move. -/
def ownMove (s : State) : State := if exchangeNext s then exchangeStep s else startStep s

/-- At most `n` moves of the block by itself, until it waits (R185). -/
def runOwn : Nat → State → State
  | 0, s => s
  | n + 1, s => if ownMoveNext s then runOwn n (ownMove s) else s

/-- The most moves of one start-up pass after the open (R185): three operations, each one start and its exchanges. -/
def passFuel (c : Config) : Nat := 3 * (1 + opFuel c)

end Sys2Proof.Machine
end

