-- ==== Sys2Proof/Machine/Agenda.lean ====
section
/-! DEFINITION. What the block does next (R12, R13, R182, R183): the hardwired operation sequence stands in `sst`, `bst` and the
operation latch, which is where a step fetches its instruction (R57, log 1); and how a table word is placed there. -/

namespace Sys2Proof.Machine

/-- What the block does in a step. -/
inductive Agenda where
  /-- Run this instruction. -/
  | run (i : Instr)
  /-- Start the operation of the present sequencer state (R171 to R173). -/
  | startOperation
  /-- A honoured tick starts a poll cycle (R174). -/
  | startPoll
  /-- No step of the block is enabled: it waits (R180, R185, R211). -/
  | rest
  /-- An exchange is next and its report is no command report. -/
  | undecodable
deriving DecidableEq, Repr

/-- The inputs honoured in `S_IDLE`: `stop` before `tick` (R181, R182, R201 (a)). -/
def idleAgenda (inp : Inputs) : Agenda :=
  if inp.stop then .run .stop else if inp.tick then .startPoll else .rest

/-- With no exchange next: by sequencer state (R183), where the bridge is idle. -/
def quietAgenda (s : State) : Agenda :=
  if s.brg.bst = .bIdle then
    match s.seq.sst with
    | .sConfig => .startOperation
    | .sInitDir => .startOperation
    | .sInitPu => .startOperation
    | .sIdle => idleAgenda s.world.inp
    | .sRead => .rest
    | .sOpen => .rest
    | .sDead => .rest
    | .sOff => .rest
  else .rest

/-- The report that is next, decoded: the fetch of a command. -/
def fetchAgenda (s : State) : Agenda :=
  match nextReport s.cfg s.brg with
  | none => quietAgenda s
  | some tx =>
    match decodeCommand s.cfg tx with
    | .ok i => .run i
    | .rejected _ => .undecodable

/-- What the block does next: `rst` over everything (R182); `S_OPEN` opens (R170); `S_DEAD` and `S_OFF` have no step (R180). -/
def agenda (s : State) : Agenda :=
  if s.world.inp.rst then .run .reset
  else match s.seq.sst with
  | .sOpen => .run .openBridge
  | .sDead => .rest
  | .sOff => .rest
  | .sConfig => fetchAgenda s
  | .sInitDir => fetchAgenda s
  | .sInitPu => fetchAgenda s
  | .sIdle => fetchAgenda s
  | .sRead => fetchAgenda s

/-- A step begins: the inputs are sampled, and a raised query is answered from the state before the block moves (R182: never
delayed; log 13). -/
def beginStep (s : State) : State :=
  if (sampleInputs s).world.inp.query then answerQuery (sampleInputs s) else sampleInputs s

/-! ### Placing a table word where the step fetches -/

/-- The sequencer and bridge states, the latch and the held handle that make an exchange of request `q` the next thing the block
does, with no input raised in the next step. -/
def aimAt (sst : SeqState) (bst : BridgeState) (q : Request) (s : State) : State :=
  { s with
    seq := { s.seq with sst := sst }
    brg := { startOp s.cfg q s.brg with bst := bst, k := 0 }
    world := { s.world with handle := true, lines := Inputs.quiet :: s.world.lines } }

/-- The next exchange answered by the report `r`. -/
def answerNext (r : Report) (s : State) : State :=
  { s with world := { s.world with xchgs := { send := .ok, recv := some r } :: s.world.xchgs } }

/-- The exchange a response of this echo byte answers (R68 to R70). -/
def aimAtEcho (echo : Byte) (s : State) : State :=
  if echo = s.cfg.cmdSetSpeed then aimAt .sConfig .bCmd (configureRequest s.cfg.busSpeedHz) s
  else if echo = s.cfg.cmdI2cWrite then aimAt .sInitDir .bCmd (initDirRequest s.cfg) s
  else if echo = s.cfg.cmdI2cRead then aimAt .sIdle .bCmd (readRequest s.cfg.expAddr 2) s
  else if echo = s.cfg.cmdGetStatus then aimAt .sRead .bStat (readPortRequest s.cfg) s
  else if echo = s.cfg.cmdGetData then aimAt .sRead .bData (readPortRequest s.cfg) s
  else aimAt .sRead .bCmd (readPortRequest s.cfg) s

/-- A report placed where the step fetches: a command into the latch and the state registers, a response into ENV's next
answer (log 1). -/
def placeReport (r : Report) (s : State) : State :=
  match decodeCommand s.cfg r with
  | .ok (.setSpeed hz) => aimAt .sConfig .bCmd (configureRequest hz) s
  | .ok (.i2cWrite ta wd) => aimAt .sInitDir .bCmd (writeRequest (ta.setWidth 8) wd) s
  | .ok (.i2cRead ta rl) => aimAt .sIdle .bCmd (readRequest (ta.setWidth 8) rl.toNat) s
  | .ok (.i2cWriteRead ta wd rl) => aimAt .sRead .bCmd (writeReadRequest (ta.setWidth 8) wd rl.toNat) s
  | .ok .getStatus => aimAt .sRead .bStat (readPortRequest s.cfg) s
  | .ok .getData => aimAt .sRead .bData (readPortRequest s.cfg) s
  | .ok _ => s
  | .rejected _ => answerNext r (aimAtEcho (r.headD 0#8) s)

end Sys2Proof.Machine
end

