-- ==== Sys2Proof/Machine/Commands.lean ====
section
/-! DEFINITION. The six command reports (CMD rows): one exchange each, with the reactions of the bridge controller and of the
sequencer in the same step (R90, R97 to R107). -/

namespace Sys2Proof.Machine

/-- The command report `tx` is exchanged, where it is the report the block sends next (R93 to R97, R102, R107); the block has no
way to send another (R78 (a), R207), so another is not admitted. -/
def sendReport (tx : Report) (s : State) : Host.Outcome State Fault Refusal :=
  if nextReport s.cfg s.brg = some tx then .next (exchangeStep s) else .refused .notAdmitted

/-- SET_SPEED (R62, R97 to R101). -/
def execSetSpeed (hz : BitVec 32) (s : State) : Host.Outcome State Fault Refusal :=
  sendReport (commandReport s.cfg s.cfg.cmdSetSpeed 0#8 (speedBytes hz) 0#8) s

/-- I2C_WRITE (R63, R97 to R101). -/
def execI2cWrite (ta : BitVec 7) (wd : List Byte) (s : State) : Host.Outcome State Fault Refusal :=
  sendReport (commandReport s.cfg s.cfg.cmdI2cWrite (ta.setWidth 8) wd 0#8) s

/-- I2C_READ (R64, R97 to R101). -/
def execI2cRead (ta : BitVec 7) (rl : Byte) (s : State) : Host.Outcome State Fault Refusal :=
  sendReport (commandReport s.cfg s.cfg.cmdI2cRead (ta.setWidth 8) [] rl) s

/-- I2C_WRITE_READ (R65, R97 to R101). -/
def execI2cWriteRead (ta : BitVec 7) (wd : List Byte) (rl : Byte) (s : State) :
    Host.Outcome State Fault Refusal :=
  sendReport (commandReport s.cfg s.cfg.cmdI2cWriteRead (ta.setWidth 8) wd rl) s

/-- GET_STATUS (R66, R102 to R106, R112). -/
def execGetStatus (s : State) : Host.Outcome State Fault Refusal := sendReport (statusReport s.cfg) s

/-- GET_DATA (R67, R107). -/
def execGetData (s : State) : Host.Outcome State Fault Refusal := sendReport (dataReport s.cfg) s

end Sys2Proof.Machine
end

