-- ==== Sys2Proof/Machine/Pairs.lean ====
section
/-! DEFINITION. The four LED pairs (PAIR rows, R77, R146): the decoder's output; no register of the block changes. -/

namespace Sys2Proof.Machine

/-- DECODE_EMPTY: (c, f) = (1, 1). -/
def execDecodeEmpty (s : State) : Host.Outcome State Fault Refusal := .next (setDecoded (decodeLeds true true) s)

/-- DECODE_CHARGING: (c, f) = (0, 1). -/
def execDecodeCharging (s : State) : Host.Outcome State Fault Refusal := .next (setDecoded (decodeLeds false true) s)

/-- DECODE_FULL: (c, f) = (1, 0). -/
def execDecodeFull (s : State) : Host.Outcome State Fault Refusal := .next (setDecoded (decodeLeds true false) s)

/-- DECODE_ERROR: (c, f) = (0, 0). -/
def execDecodeError (s : State) : Host.Outcome State Fault Refusal := .next (setDecoded (decodeLeds false false) s)

end Sys2Proof.Machine
end

