-- ==== Sys2Proof/Machine/Pseudo.lean ====
section
/-! DEFINITION. The pseudo-operations (PSEUDO rows, R81): fixed expansions into the layer below, run to their end (log 12). -/

namespace Sys2Proof.Machine

/-- INIT_DIR (R131): the registers of `BRG` only. -/
def execInitDir (s : State) : Host.Outcome State Fault Refusal := request (initDirRequest s.cfg) s

/-- INIT_PU (R132): the registers of `BRG` only. -/
def execInitPu (s : State) : Host.Outcome State Fault Refusal := request (initPuRequest s.cfg) s

/-- INITEXPANDER (R130): the sequencer's states `S_INIT_DIR` and `S_INIT_PU`, with InitError if either write fails; it is
run once per start-up pass, never elsewhere. -/
def execInitExpander (s : State) : Host.Outcome State Fault Refusal :=
  if s.seq.sst = .sInitDir ∧ s.brg.bst = .bIdle then .next (runOwn (passFuel s.cfg) s)
  else .refused .notAdmitted

/-- `PORT` is captured where the read ended OK (R134), else held (R135). -/
def capturePort (s : State) : State := if s.brg.res = .ok then setPort (assemblePort s.brg.rd) s else s

/-- READPORT (R133 to R135). -/
def execReadPort (s : State) : Host.Outcome State Fault Refusal :=
  match request (readPortRequest s.cfg) s with
  | .next t => .next (capturePort t)
  | .fault r => .fault r
  | .refused r => .refused r

/-- POLL (R174 to R177): a tick honoured in `S_IDLE` runs the whole cycle; in any other state it is dropped. -/
def execPoll (s : State) : Host.Outcome State Fault Refusal :=
  if s.seq.sst = .sIdle ∧ s.brg.bst = .bIdle then .next (runOwn (opFuel s.cfg) (beginPoll s))
  else .next s

/-- BOOT (R170 to R173, R184): one start-up pass from `S_OPEN`. -/
def execBoot (s : State) : Host.Outcome State Fault Refusal :=
  if s.seq.sst = .sOpen then .next (runOwn (passFuel s.cfg) (openStep s)) else .refused .notAdmitted

end Sys2Proof.Machine
end

