-- ==== Sys2Proof/Machine/Query.lean ====
section
/-! DEFINITION. The snapshot query (QUERY row, R165): admitted in every state, never waits, changes no register. -/

namespace Sys2Proof.Machine

/-- GETSNAPSHOT (R165). -/
def execGetSnapshot (s : State) : Host.Outcome State Fault Refusal := .next (answerQuery s)

end Sys2Proof.Machine
end

