-- ==== Sys2Proof/Machine/Requests.lean ====
section
/-! DEFINITION. The four public driver operations (REQ rows, R113 to R116): each run to its outcome against ENV's answers
(R117, log 12). They write the registers of `BRG` and the trace `HID`, nothing else of the block. -/

namespace Sys2Proof.Machine

/-- CONFIGURE: `configure(bus_speed_hz)` (R113). -/
def execConfigure (hz : BitVec 32) (s : State) : Host.Outcome State Fault Refusal := request (configureRequest hz) s

/-- WRITE: `write(target_address, bytes)` (R114). -/
def execWrite (ta : Byte) (wd : List Byte) (s : State) : Host.Outcome State Fault Refusal :=
  request (writeRequest ta wd) s

/-- READ: `read(target_address, length)` (R115). -/
def execRead (ta : Byte) (rl : Nat) (s : State) : Host.Outcome State Fault Refusal := request (readRequest ta rl) s

/-- WRITEREAD: `writeRead(target_address, write_bytes, read_length)` (R116). -/
def execWriteRead (ta : Byte) (wd : List Byte) (rl : Nat) (s : State) : Host.Outcome State Fault Refusal :=
  request (writeReadRequest ta wd rl) s

end Sys2Proof.Machine
end

