-- ==== Sys2Proof/Machine/Responses.lean ====
section
/-! DEFINITION. The nine responses (RSP rows): the exchange that is next, its send accepted, answered by this response
(R68 to R71, R97 to R107). A response is classified against the code of the command it answers (R71), so a row that answers
another command is no answer; with no exchange next, nothing is received (R208) and no register changes (log 10). -/

namespace Sys2Proof.Machine

/-- The exchange that is next is answered by what `HidReceive` brought. -/
def answerWith (rx : Option Report) (s : State) : Host.Outcome State Fault Refusal :=
  if exchangeNext s then .next (answeredStep { send := .ok, recv := rx } s) else .next s

/-- RSP_ACCEPTED (R68, R100). -/
def execRspAccepted (echo : Byte) (rest : List Byte) (s : State) : Host.Outcome State Fault Refusal :=
  answerWith (some (echo :: s.cfg.resOk :: rest)) s

/-- RSP_BUSY (R68, R99). -/
def execRspBusy (echo : Byte) (rest : List Byte) (s : State) : Host.Outcome State Fault Refusal :=
  answerWith (some (echo :: s.cfg.resBusy :: rest)) s

/-- RSP_STATUS_IN_PROGRESS (R69, R103). -/
def execRspStatusInProgress (rest : List Byte) (s : State) : Host.Outcome State Fault Refusal :=
  answerWith (some (s.cfg.cmdGetStatus :: s.cfg.resOk :: s.cfg.stInProgress :: rest)) s

/-- RSP_STATUS_COMPLETE (R69, R104). -/
def execRspStatusComplete (rest : List Byte) (s : State) : Host.Outcome State Fault Refusal :=
  answerWith (some (s.cfg.cmdGetStatus :: s.cfg.resOk :: s.cfg.stComplete :: rest)) s

/-- RSP_STATUS_ERR_NACK (R69, R105). -/
def execRspStatusErrNack (rest : List Byte) (s : State) : Host.Outcome State Fault Refusal :=
  answerWith (some (s.cfg.cmdGetStatus :: s.cfg.resOk :: s.cfg.stErrNack :: rest)) s

/-- RSP_STATUS_ERR_TIMEOUT (R69, R106). -/
def execRspStatusErrTimeout (rest : List Byte) (s : State) : Host.Outcome State Fault Refusal :=
  answerWith (some (s.cfg.cmdGetStatus :: s.cfg.resOk :: s.cfg.stErrTimeout :: rest)) s

/-- RSP_DATA (R70, R107). -/
def execRspData (state n : Byte) (data : List Byte) (s : State) : Host.Outcome State Fault Refusal :=
  answerWith (some (s.cfg.cmdGetData :: s.cfg.resOk :: state :: n :: data)) s

/-- RSP_NODATA (R70, R107). -/
def execRspNoData (rest : List Byte) (s : State) : Host.Outcome State Fault Refusal :=
  answerWith (some (s.cfg.cmdGetData :: s.cfg.resNoData :: rest)) s

/-- RSP_NOANSWER (R71, R98, R103, R107): a report that matches no row, or none within `RX_TIMEOUT`. -/
def execRspNoAnswer (rx : Option Report) (s : State) : Host.Outcome State Fault Refusal :=
  answerWith rx s

end Sys2Proof.Machine
end

