-- ==== Sys2Proof/Machine/SeqOps.lean ====
section
/-! DEFINITION. The sequencer's operations (SEQ rows): open, reconnect, shut-down, reset. -/

namespace Sys2Proof.Machine

/-- OPEN (R170, R205): called only from `S_OPEN`. -/
def execOpen (s : State) : Host.Outcome State Fault Refusal :=
  if s.seq.sst = .sOpen then .next (openStep s) else .refused .notAdmitted

/-- RECONNECT (R178): `FatalIO()`, in the four states a fatal USB I/O error can occur in. -/
def execReconnect (s : State) : Host.Outcome State Fault Refusal :=
  if inPass s = true ∨ s.seq.sst = .sRead then .next (fatalIO s) else .refused .notAdmitted

/-- STOP (R181): honoured in `S_IDLE`, dropped elsewhere. -/
def execStop (s : State) : Host.Outcome State Fault Refusal :=
  if s.seq.sst = .sIdle then .next (stopStep s) else .next s

/-- RESET (R215, R216), in any state; a sampled `DEBOUNCE_N` of 0 is no legal instance (93 U18, log 23). -/
def execReset (s : State) : Host.Outcome State Fault Refusal :=
  if s.world.inp.debounceN = 0#8 then .refused .illegalInstance else .next (resetBlock s)

end Sys2Proof.Machine
end

