-- ==== Sys2Proof/Machine/SlotOps.lean ====
section
/-! DEFINITION. The slot engine's operations (SLOT rows, file 42). A time operand is a `Time`: its low `TIME_W` bits are taken
(R11). -/

namespace Sys2Proof.Machine

/-- DEBOUNCE (R148 to R152). -/
def execDebounce (slot : Fin 6) (d : SlotState) (s : State) : Host.Outcome State Fault Refusal :=
  .next (debounceSlot slot d s)

/-- PUBLISH (R155). -/
def execPublish (t : Time) (s : State) : Host.Outcome State Fault Refusal := .next (publishSnapshot (s.cfg.timeOf t) s)

/-- DISPATCH (R156, R161). -/
def execDispatch (t : Time) (s : State) : Host.Outcome State Fault Refusal := .next (dispatchEvents (s.cfg.timeOf t) s)

/-- NOTIFY (R162 to R164). -/
def execNotify (slot : Fin 6) (prev new : SlotState) (t : Time) (s : State) : Host.Outcome State Fault Refusal :=
  .next (notifyGate ⟨slot, prev, new, s.cfg.timeOf t⟩ s)

end Sys2Proof.Machine
end

