-- ==== Sys2Proof/Machine/Dispatch.lean ====
section
/-! DEFINITION. One arm per row of the opcode table. -/

namespace Sys2Proof.Machine

def exec (i : Instr) (s : State) : Host.Outcome State Fault Refusal :=
  match i with
  | .setSpeed hz => Sys2Proof.Machine.execSetSpeed hz s
  | .i2cWrite ta wd => Sys2Proof.Machine.execI2cWrite ta wd s
  | .i2cRead ta rl => Sys2Proof.Machine.execI2cRead ta rl s
  | .i2cWriteRead ta wd rl => Sys2Proof.Machine.execI2cWriteRead ta wd rl s
  | .getStatus => Sys2Proof.Machine.execGetStatus s
  | .getData => Sys2Proof.Machine.execGetData s
  | .rspAccepted echo rest => Sys2Proof.Machine.execRspAccepted echo rest s
  | .rspBusy echo rest => Sys2Proof.Machine.execRspBusy echo rest s
  | .rspStatusInProgress rest => Sys2Proof.Machine.execRspStatusInProgress rest s
  | .rspStatusComplete rest => Sys2Proof.Machine.execRspStatusComplete rest s
  | .rspStatusErrNack rest => Sys2Proof.Machine.execRspStatusErrNack rest s
  | .rspStatusErrTimeout rest => Sys2Proof.Machine.execRspStatusErrTimeout rest s
  | .rspData state n data => Sys2Proof.Machine.execRspData state n data s
  | .rspNoData rest => Sys2Proof.Machine.execRspNoData rest s
  | .rspNoAnswer rx => Sys2Proof.Machine.execRspNoAnswer rx s
  | .configure hz => Sys2Proof.Machine.execConfigure hz s
  | .write ta wd => Sys2Proof.Machine.execWrite ta wd s
  | .read ta rl => Sys2Proof.Machine.execRead ta rl s
  | .writeRead ta wd rl => Sys2Proof.Machine.execWriteRead ta wd rl s
  | .decodeEmpty => Sys2Proof.Machine.execDecodeEmpty s
  | .decodeCharging => Sys2Proof.Machine.execDecodeCharging s
  | .decodeFull => Sys2Proof.Machine.execDecodeFull s
  | .decodeError => Sys2Proof.Machine.execDecodeError s
  | .initDir => Sys2Proof.Machine.execInitDir s
  | .initPu => Sys2Proof.Machine.execInitPu s
  | .initExpander => Sys2Proof.Machine.execInitExpander s
  | .readPort => Sys2Proof.Machine.execReadPort s
  | .poll => Sys2Proof.Machine.execPoll s
  | .boot => Sys2Proof.Machine.execBoot s
  | .openBridge => Sys2Proof.Machine.execOpen s
  | .reconnect => Sys2Proof.Machine.execReconnect s
  | .stop => Sys2Proof.Machine.execStop s
  | .reset => Sys2Proof.Machine.execReset s
  | .debounce slot d => Sys2Proof.Machine.execDebounce slot d s
  | .publish t => Sys2Proof.Machine.execPublish t s
  | .dispatch t => Sys2Proof.Machine.execDispatch t s
  | .notify slot prev new t => Sys2Proof.Machine.execNotify slot prev new t s
  | .getSnapshot => Sys2Proof.Machine.execGetSnapshot s

end Sys2Proof.Machine
end

