-- ==== Sys2Proof/Machine/Step.lean ====
section
/-! DEFINITION. One step of the machine (R7, R90, 92 D2), and a table word placed where it fetches. -/

namespace Sys2Proof.Machine

/-- What the block does once the step has begun. -/
def blockStep (s : State) : Host.Outcome State Fault Refusal :=
  match agenda s with
  | .run i => exec i s
  | .startOperation => .next (startStep s)
  | .startPoll => .next (beginPoll s)
  | .rest => .next s
  | .undecodable => .fault .undecodableReport

/-- One step: the inputs are sampled, a query is answered, the block does what is next. -/
def step (s : State) : Host.Outcome State Fault Refusal := blockStep (beginStep s)

/-- The 32-bit table word `w` placed where `step` fetches its next instruction; there are no words of another size. -/
def State.withFetchWord (s : State) (nbits w : Nat) : State :=
  if nbits = 32 then placeReport (tableReport s.cfg w) s else s

end Sys2Proof.Machine
end

