-- ==== Sys2Proof/Machine/BigStep.lean ====
section
/-! DEFINITION. The big-step view of a driver operation, R117, written from its own pseudocode and not from the FSM: what
`DriverOp(o, a, w, r)` yields against ENV's answers. Claims compare the FSM with it. -/

namespace Sys2Proof.Machine

/-- What the big-step view carries along: the world's remaining answers and the transport calls made. -/
structure Run where
  world : World
  calls : List HidCall
deriving DecidableEq, Repr

/-- `HidXchg(tx, code)` (R96) on the world's next answers. -/
def Run.exchange (c : Config) (tx : Report) (code : Byte) (r : Run) : XchgResult × Run :=
  (xchgResult c r.world.xchgAnswer code,
    { world := r.world.afterXchg, calls := r.calls ++ xchgCalls c.rxTimeout tx r.world.xchgAnswer })

/-- How the status polls of an attempt end (R117): completion, or an outcome. -/
inductive PollEnd where
  | complete
  | ended (o : BusOutcome)
deriving DecidableEq, Repr

/-- `for j in 1 .. STATUS_POLL_MAX` of `Attempt` (R117): `n` polls are left. -/
def pollStatus (c : Config) : Nat → Run → PollEnd × Run
  | 0, r => (.ended .timeout, r)
  | n + 1, r =>
    let x := r.exchange c (statusReport c) c.cmdGetStatus
    match x.1 with
    | .ioErr => (.ended .ioErr, x.2)
    | .badSize => (.ended .badSize, x.2)
    | .status .complete => (.complete, x.2)
    | .status .errNack => (.ended .nack, x.2)
    | .status .errTimeout => (.ended .timeout, x.2)
    | _ => pollStatus c n x.2

/-- `fetch` of `Attempt` (R117): the outcome, and the bytes of `rd` it sets. -/
def fetchData (c : Config) (q : Request) (r : Run) : BusOutcome × Option (List Byte) × Run :=
  if hasRead q.op then
    let x := r.exchange c (dataReport c) c.cmdGetData
    match x.1 with
    | .ioErr => (.ioErr, none, x.2)
    | .badSize => (.badSize, none, x.2)
    | .noData => (.lenMismatch, none, x.2)
    | .data n bytes => if n.toNat = q.r then (.ok, some (bytes.take q.r), x.2) else (.lenMismatch, none, x.2)
    | _ => (.timeout, none, x.2)
  else (.ok, none, r)

/-- `Attempt(o, a, w, r)` (R117). -/
def attempt (c : Config) (q : Request) (r : Run) : BusOutcome × Option (List Byte) × Run :=
  let x := r.exchange c (commandReport c (cmdCode c q.op) q.ta q.w (BitVec.ofNat 8 q.r)) (cmdCode c q.op)
  match x.1 with
  | .ioErr => (.ioErr, none, x.2)
  | .badSize => (.badSize, none, x.2)
  | .busy => (.busy, none, x.2)
  | .accepted =>
    let p := pollStatus c c.statusPollMax x.2
    match p.1 with
    | .ended o => (o, none, p.2)
    | .complete => fetchData c q p.2
  | _ => (.timeout, none, x.2)

/-- The attempts of `DriverOp` (R117), `n` retries left. -/
def attempts (c : Config) (q : Request) : Nat → Run → BusOutcome × Option (List Byte) × Run
  | 0, r => attempt c q r
  | n + 1, r =>
    let x := attempt c q r
    if retryable c.retryOn x.1 then attempts c q n x.2.2 else x

/-- `DriverOp(o, a, w, r)` (R117) for admitted arguments. -/
def bigStepOp (c : Config) (q : Request) (w : World) : BusOutcome × Option (List Byte) × Run :=
  attempts c q Config.retryMax { world := w, calls := [] }

/-- Driver operations in turn, until one does not end OK: its outcome, the world after it and all calls made. -/
def bigStepSeq (c : Config) : List Request → World → BusOutcome × Run
  | [], w => (.ok, { world := w, calls := [] })
  | q :: qs, w =>
    let x := bigStepOp c q w
    if x.1 = .ok then
      let y := bigStepSeq c qs x.2.2.world
      (y.1, { world := y.2.world, calls := x.2.2.calls ++ y.2.calls })
    else (x.1, x.2.2)

/-- The three operations of a start-up pass (R171 to R173): `configure(BUS_SPEED_HZ)`, INIT_DIR, INIT_PU. -/
def bigStepPass (c : Config) (w : World) : BusOutcome × Run :=
  bigStepSeq c [configureRequest c.busSpeedHz, initDirRequest c, initPuRequest c] w

end Sys2Proof.Machine
end

