-- ==== Sys2Proof/Safety.lean ====
section
/-! DEFINITION. What counts as a sound state (R30 and the invariants the rules name), and the frames claims speak of. -/

namespace Sys2Proof.Machine

/-- The request the operation latch holds (R15). -/
def latchedRequest (b : BridgeRegs) : Request :=
  { op := b.op, ta := b.ta.setWidth 8, w := b.wd.take b.wl, r := b.rl }

/-- The request of the sequencer's operation in a state that has one (R171 to R173, R133). -/
def ownRequest (s : State) : Option Request :=
  match s.seq.sst with
  | .sConfig => some (configureRequest s.cfg.busSpeedHz)
  | .sInitDir => some (initDirRequest s.cfg)
  | .sInitPu => some (initPuRequest s.cfg)
  | .sRead => some (readPortRequest s.cfg)
  | .sOpen => none
  | .sIdle => none
  | .sDead => none
  | .sOff => none

/-- The invariant of the block between two steps: R30 with the facts its derivation rests on. -/
structure State.Inv (s : State) : Prop where
  /-- The instance is legal (R5). -/
  legal : s.cfg.legal = true
  /-- `wd[0..MAX_WR-1]`, `rd[0..MAX_RD-1]` (R15, R18). -/
  wd_length : s.brg.wd.length = s.cfg.maxPayload
  rd_length : s.brg.rd.length = s.cfg.maxPayload
  /-- `wl`, 0 to `MAX_WR`, and `rl`, 0 to `MAX_RD`, in their widths (R15). -/
  wl_le : s.brg.wl ≤ s.cfg.maxPayload
  rl_le : s.brg.rl ≤ s.cfg.maxPayload
  wl_width : s.brg.wl < 2 ^ s.cfg.lenWidth
  rl_width : s.brg.rl < 2 ^ s.cfg.lenWidth
  /-- `k` in its width (R17). -/
  k_width : s.brg.k < 2 ^ s.cfg.kWidth
  /-- Timestamps have `TIME_W` bits (R11, R23, R27). -/
  ts_width : s.slt.snap.ts < 2 ^ s.cfg.timeW
  out_ts_width : ∀ o ∈ s.out, o.ts < 2 ^ s.cfg.timeW
  /-- R30 (b). -/
  snap_commit : s.slt.snap.st = s.slt.commit
  /-- R30 (c). -/
  cnt_lt : ∀ i, (s.slt.cnt.get i).toNat < s.cfg.debounceN.toNat
  /-- R30 (d). -/
  cand_of_zero : ∀ i, s.slt.cnt.get i = 0#8 → s.slt.cand.get i = s.slt.commit.get i
  cand_of_pos : ∀ i, s.slt.cnt.get i ≠ 0#8 → s.slt.cand.get i ≠ s.slt.commit.get i ∧ s.slt.cand.get i ≠ .unknown
  /-- R30 (f); `try` ≤ `RETRY_MAX` holds by its width. -/
  k_le : s.brg.k ≤ s.cfg.statusPollMax
  /-- The precondition of R102 holds whenever a poll is next. -/
  poll_left : s.brg.bst = .bStat → s.brg.k < s.cfg.statusPollMax
  /-- R30 (g). -/
  closed : s.seq.sst = .sDead ∨ s.seq.sst = .sOff ∨ s.seq.sst = .sOpen → s.brg.bst = .bClosed
  idle : s.seq.sst = .sIdle → s.brg.bst = .bIdle
  /-- In a start-up pass the handle is held; in `S_READ` the operation is in flight (R170, R174). -/
  pass_open : inPass s = true → s.brg.bst ≠ .bClosed
  read_busy : s.seq.sst = .sRead → s.busy = true
  /-- The operation in flight is the sequencer's (R53), and its arguments are in bounds (R91). -/
  in_flight : s.busy = true → ownRequest s = some (latchedRequest s.brg)
  in_bounds : s.busy = true → argsOk s.cfg (latchedRequest s.brg) = true
  /-- In `S_IDLE` and `S_READ` `rc` is 0 (R14, R183). -/
  settled : s.seq.sst = .sIdle ∨ s.seq.sst = .sRead → s.seq.rc = false
  /-- R30 (h). -/
  fresh : s.slt.snap.stale = false → s.seq.err = ⟨.noErr, .ok⟩
  /-- `S_DEAD` is stale (R180). -/
  dead_stale : s.seq.sst = .sDead → s.slt.snap.stale = true
  /-- The transport's handle is held exactly while `bst` ≠ `B_CLOSED` (R205). -/
  handle_iff : s.world.handle = true ↔ s.brg.bst ≠ .bClosed
  /-- `ev` is no state between steps (R145). -/
  no_events : s.scratch.ev = Six.fill none

/-- No register of the block and no trace differs: only the model's own world may. -/
def sameBlock (s t : State) : Prop :=
  t.cfg = s.cfg ∧ t.seq = s.seq ∧ t.brg = s.brg ∧ t.port = s.port ∧ t.slt = s.slt ∧ t.scratch = s.scratch
    ∧ t.out = s.out ∧ t.hid = s.hid

/-- Nothing but the registers of `BRG`, the trace `HID` and the world's answers differs (R113 to R116, "Writes"). -/
def onlyBridge (s t : State) : Prop :=
  t.cfg = s.cfg ∧ t.seq = s.seq ∧ t.port = s.port ∧ t.slt = s.slt ∧ t.scratch = s.scratch ∧ t.out = s.out

/-- The slot registers and the values and time of the snapshot are as before: only `SNAP.stale` may differ (R176, R191). -/
def sameSlots (s t : State) : Prop :=
  t.slt.commit = s.slt.commit ∧ t.slt.cand = s.slt.cand ∧ t.slt.cnt = s.slt.cnt
    ∧ t.slt.snap.st = s.slt.snap.st ∧ t.slt.snap.ts = s.slt.snap.ts

/-- The state after one exchange of report `tx` that the world answered by `a`, `BRG` left with the registers `b`: nothing else
differs. -/
def exchanged (s : State) (tx : Report) (a : XchgAnswer) (b : BridgeRegs) : State :=
  { s with brg := b, hid := s.hid ++ xchgCalls s.cfg.rxTimeout tx a, world := s.world.afterXchg }

/-- The state after one exchange of report `tx`, sent, and answered by what `HidReceive` brought (`rx`), `BRG` left with the
registers `b`: nothing else differs. -/
def answered (s : State) (tx : Report) (rx : Option Report) (b : BridgeRegs) : State :=
  { s with brg := b, hid := s.hid ++ [.sent tx .ok, .received s.cfg.rxTimeout rx] }

/-- The command rows that start a transfer (R97): SET_SPEED, I2C_WRITE, I2C_READ, I2C_WRITE_READ. -/
def startsTransfer : Instr → Bool
  | .setSpeed _ => true
  | .i2cWrite _ _ => true
  | .i2cRead _ _ => true
  | .i2cWriteRead _ _ _ => true
  | _ => false

/-- The block sends the command `i`, whose report is `tx`, in its next exchange. -/
def sends (i : Instr) (tx : Report) (s : State) : Prop :=
  encode s.cfg i = some (.cmd tx) ∧ nextReport s.cfg s.brg = some tx

/-- The request a REQ row stands for (R113 to R116). -/
def requestOf : Instr → Option Request
  | .configure hz => some (configureRequest hz)
  | .write ta wd => some (writeRequest ta wd)
  | .read ta rl => some (readRequest ta rl)
  | .writeRead ta wd rl => some (writeReadRequest ta wd rl)
  | _ => none

/-- `rd` after an operation that set these reply bytes (R107). -/
def replyBytes (bytes : Option (List Byte)) (rd : List Byte) : List Byte :=
  match bytes with
  | some bs => overwrite bs rd
  | none => rd

/-- What slot i decodes to, by multiplexer and decoder (R136, R146). -/
def decodedSlot (s : State) (i : Fin 6) : SlotState :=
  decodeLeds (chargingBit s.cfg i s.port) (fullBit s.cfg i s.port)

/-- `n` further cycles in which one slot decodes to `d` (R148): its registers `COMMIT`, `CAND`, `CNT`. -/
def debounceTimes (nn : BitVec 8) (d : SlotState) :
    Nat → SlotState × SlotState × BitVec 8 → SlotState × SlotState × BitVec 8
  | 0, r => r
  | n + 1, r =>
    let x := debounceOne nn d r.1 r.2.1 r.2.2
    debounceTimes nn d n (x.commit, x.cand, x.cnt)

/-- What `Dispatch` appends for one slot's event (R156, R161, R162): the event, then its notify request. -/
def emitted (s : State) (t : Time) (i : Fin 6) : List Output :=
  match s.scratch.ev.get i with
  | none => []
  | some (prev, new) =>
    .ev ⟨i, prev, new, t⟩ ::
      (if s.cfg.notifyEn = true ∧ new = .full then [.nt ⟨i, s.slt.commit, t⟩] else [])

/-- What a slot cycle from `s` to `u` at time `t` is to append for slot i (R156, R161, R162): nothing where its committed state
did not change; else the event, and right after it the notify request where the event is into FULL and notification is enabled. -/
def transitionOutput (s u : State) (t : Time) (i : Fin 6) : List Output :=
  if u.slt.commit.get i = s.slt.commit.get i then []
  else .ev ⟨i, s.slt.commit.get i, u.slt.commit.get i, t⟩ ::
    (if s.cfg.notifyEn = true ∧ u.slt.commit.get i = .full then [.nt ⟨i, u.slt.commit, t⟩] else [])

/-- The transitions of `sst` R183 lists, for a step without `rst`; a step that only waits or goes on with an operation leaves
`sst`. -/
def allowedTransition (a b : SeqState) : Bool :=
  match a, b with
  | .sOpen, .sConfig => true
  | .sOpen, .sDead => true
  | .sConfig, .sInitDir => true
  | .sConfig, .sDead => true
  | .sConfig, .sOpen => true
  | .sInitDir, .sInitPu => true
  | .sInitDir, .sDead => true
  | .sInitDir, .sOpen => true
  | .sInitPu, .sIdle => true
  | .sInitPu, .sDead => true
  | .sInitPu, .sOpen => true
  | .sIdle, .sOff => true
  | .sIdle, .sRead => true
  | .sRead, .sIdle => true
  | .sRead, .sOpen => true
  | .sRead, .sDead => true
  | _, _ => decide (a = b)

/-- The number of reports sent in a piece of the trace `HID`: the exchanges made (R118). -/
def sendCount (calls : List HidCall) : Nat :=
  (calls.filter (fun h => match h with | .sent _ _ => true | _ => false)).length

end Sys2Proof.Machine
end

