-- ==== Sys2Proof/Certificates/Slice0/Obligations.lean ====
section
/-! DEFINITION. The statements for the provers, in the order of `OBLIGATIONS.json`. -/

open Sys2Proof Sys2Proof.Machine

/-! ### Command reports (R97 to R112) -/

/-- R100. An accepted command: `k` is cleared, polling begins, nothing else of the block changes. -/
def Obligations.AcceptedCommandStartsPolling : Prop :=
  ∀ (i : Instr) (s : State) (tx : Report) (rest : List Byte),
    s.cfg.legal = true → startsTransfer i = true → sends i tx s → rest.length + 2 = s.cfg.reportSize →
    s.world.xchgAnswer = ⟨.ok, some (cmdCode s.cfg s.brg.op :: s.cfg.resOk :: rest)⟩ →
    exec i s = .next (exchanged s tx s.world.xchgAnswer { s.brg with k := 0, bst := .bStat })

/-- R98, R99. A busy answer fails the attempt with BUSY; no answer, or one that does not classify, with TIMEOUT. -/
def Obligations.BusyOrUnansweredCommandFailsAttempt : Prop :=
  ∀ (i : Instr) (s : State) (tx : Report), s.cfg.legal = true → startsTransfer i = true → sends i tx s →
    (∀ rest : List Byte, rest.length + 2 = s.cfg.reportSize →
      s.world.xchgAnswer = ⟨.ok, some (cmdCode s.cfg s.brg.op :: s.cfg.resBusy :: rest)⟩ →
      exec i s = .next (settle (exchanged s tx s.world.xchgAnswer (attemptFail s.cfg .busy s.brg)))) ∧
    (s.world.xchgAnswer = ⟨.ok, none⟩ →
      exec i s = .next (settle (exchanged s tx s.world.xchgAnswer (attemptFail s.cfg .timeout s.brg)))) ∧
    (∀ (echo result : Byte) (rest : List Byte), s.world.xchgAnswer = ⟨.ok, some (echo :: result :: rest)⟩ →
      (echo ≠ cmdCode s.cfg s.brg.op ∨ (result ≠ s.cfg.resOk ∧ result ≠ s.cfg.resBusy)) →
      exec i s = .next (settle (exchanged s tx s.world.xchgAnswer (attemptFail s.cfg .timeout s.brg))))

/-- R101, R112, R107. A failed send makes no receive and ends the operation at once in every state of the FSM, whatever
`try` is; a failed status request has counted (R102). -/
def Obligations.FailedSendEndsOperation : Prop :=
  ∀ (i : Instr) (s : State) (tx : Report), sends i tx s →
    (s.world.xchgAnswer.send = .ioError →
      exec i s = .next (settle { s with
        brg := { s.brg with
          k := if s.brg.bst = .bStat then s.brg.k + 1 else s.brg.k, res := .ioErr, bst := .bIdle }
        hid := s.hid ++ [.sent tx .ioError], world := s.world.afterXchg })) ∧
    (s.world.xchgAnswer.send = .invalidReportSize →
      exec i s = .next (settle { s with
        brg := { s.brg with
          k := if s.brg.bst = .bStat then s.brg.k + 1 else s.brg.k, res := .badSize, bst := .bIdle }
        hid := s.hid ++ [.sent tx .invalidReportSize], world := s.world.afterXchg }))

/-- R102, R103. A poll that shows no end state counts (`k` does not wrap in its width, R17); the one that reaches
`STATUS_POLL_MAX` fails the attempt with TIMEOUT. -/
def Obligations.UnfinishedPollCountsThenTimesOut : Prop :=
  ∀ s : State, s.cfg.legal = true → s.brg.bst = .bStat → s.brg.k < s.cfg.statusPollMax →
    (s.world.xchgAnswer = ⟨.ok, none⟩ ∨
      (∃ r, s.world.xchgAnswer = ⟨.ok, some r⟩ ∧ classify s.cfg r s.cfg.cmdGetStatus = .noAnswer) ∨
      ∃ rest : List Byte, rest.length + 3 = s.cfg.reportSize ∧
        s.world.xchgAnswer = ⟨.ok, some (s.cfg.cmdGetStatus :: s.cfg.resOk :: s.cfg.stInProgress :: rest)⟩) →
    (s.brg.k + 1 < s.cfg.statusPollMax →
      exec .getStatus s
        = .next (exchanged s (statusReport s.cfg) s.world.xchgAnswer { s.brg with k := s.brg.k + 1 })) ∧
    (s.brg.k + 1 = s.cfg.statusPollMax →
      exec .getStatus s
        = .next (settle (exchanged s (statusReport s.cfg) s.world.xchgAnswer
            (attemptFail s.cfg .timeout { s.brg with k := s.brg.k + 1 }))))

/-- R104. Completion, on the last permitted poll too: a read goes on to fetch its data, a write ends OK. -/
def Obligations.CompletionFetchesDataOrFinishes : Prop :=
  ∀ (s : State) (rest : List Byte), s.cfg.legal = true → s.brg.bst = .bStat → s.brg.k < s.cfg.statusPollMax →
    rest.length + 3 = s.cfg.reportSize →
    s.world.xchgAnswer = ⟨.ok, some (s.cfg.cmdGetStatus :: s.cfg.resOk :: s.cfg.stComplete :: rest)⟩ →
    (hasRead s.brg.op = true →
      exec .getStatus s = .next (exchanged s (statusReport s.cfg) s.world.xchgAnswer
        { s.brg with k := s.brg.k + 1, bst := .bData })) ∧
    (hasRead s.brg.op = false →
      exec .getStatus s = .next (settle (exchanged s (statusReport s.cfg) s.world.xchgAnswer
        { s.brg with k := s.brg.k + 1, res := .ok, bst := .bIdle })))

/-- R105, R106. An error status fails the attempt with NACK or TIMEOUT. -/
def Obligations.ErrorStatusFailsAttempt : Prop :=
  ∀ (s : State) (rest : List Byte), s.cfg.legal = true → s.brg.bst = .bStat → s.brg.k < s.cfg.statusPollMax →
    rest.length + 3 = s.cfg.reportSize →
    (s.world.xchgAnswer = ⟨.ok, some (s.cfg.cmdGetStatus :: s.cfg.resOk :: s.cfg.stErrNack :: rest)⟩ →
      exec .getStatus s = .next (settle (exchanged s (statusReport s.cfg) s.world.xchgAnswer
        (attemptFail s.cfg .nack { s.brg with k := s.brg.k + 1 })))) ∧
    (s.world.xchgAnswer = ⟨.ok, some (s.cfg.cmdGetStatus :: s.cfg.resOk :: s.cfg.stErrTimeout :: rest)⟩ →
      exec .getStatus s = .next (settle (exchanged s (statusReport s.cfg) s.world.xchgAnswer
        (attemptFail s.cfg .timeout { s.brg with k := s.brg.k + 1 }))))

/-- R107. The data report: copied only when its count is the expected length; every other answer by its case. (That `rd` beyond the
reply keeps its bytes is the model's choice, log 22.) -/
def Obligations.DataFetchCopiesOnlyMatchingCount : Prop :=
  ∀ s : State, s.cfg.legal = true → s.brg.bst = .bData →
    (∀ (b2 n : Byte) (bytes : List Byte), bytes.length + 4 = s.cfg.reportSize →
      s.world.xchgAnswer = ⟨.ok, some (s.cfg.cmdGetData :: s.cfg.resOk :: b2 :: n :: bytes)⟩ →
      (n.toNat = s.brg.rl →
        exec .getData s = .next (settle (exchanged s (dataReport s.cfg) s.world.xchgAnswer
          { s.brg with
            rd := bytes.take s.brg.rl ++ s.brg.rd.drop (min s.brg.rl s.cfg.maxPayload)
            res := .ok, bst := .bIdle }))) ∧
      (n.toNat ≠ s.brg.rl →
        exec .getData s = .next (settle (exchanged s (dataReport s.cfg) s.world.xchgAnswer
          (attemptFail s.cfg .lenMismatch s.brg))))) ∧
    (∀ rest : List Byte, rest.length + 2 = s.cfg.reportSize →
      s.world.xchgAnswer = ⟨.ok, some (s.cfg.cmdGetData :: s.cfg.resNoData :: rest)⟩ →
      exec .getData s = .next (settle (exchanged s (dataReport s.cfg) s.world.xchgAnswer
        (attemptFail s.cfg .lenMismatch s.brg)))) ∧
    (s.world.xchgAnswer = ⟨.ok, none⟩ ∨
        (∃ r, s.world.xchgAnswer = ⟨.ok, some r⟩ ∧ classify s.cfg r s.cfg.cmdGetData = .noAnswer) →
      exec .getData s = .next (settle (exchanged s (dataReport s.cfg) s.world.xchgAnswer
        (attemptFail s.cfg .timeout s.brg)))) ∧
    (s.world.xchgAnswer.send = .ioError →
      exec .getData s = .next (settle (exchanged s (dataReport s.cfg) s.world.xchgAnswer
        { s.brg with res := .ioErr, bst := .bIdle }))) ∧
    (s.world.xchgAnswer.send = .invalidReportSize →
      exec .getData s = .next (settle (exchanged s (dataReport s.cfg) s.world.xchgAnswer
        { s.brg with res := .badSize, bst := .bIdle })))

/-- R109, R110, R111. A failed attempt is repeated once where its outcome is in `RETRY_ON`, and else ends the operation with
that outcome; a retry keeps the latch. With the defaults TIMEOUT and NACK are retried, BUSY and LEN_MISMATCH are not. -/
def Obligations.FailedAttemptRetriesOnceThenEnds : Prop :=
  (∀ (c : Config) (o : BusOutcome) (b : BridgeRegs), retryable c.retryOn o = true → b.tries = 0#1 →
    attemptFail c o b = { b with tries := 1#1, bst := .bCmd }) ∧
  (∀ (c : Config) (o : BusOutcome) (b : BridgeRegs), retryable c.retryOn o = false ∨ b.tries = 1#1 →
    attemptFail c o b = { b with res := o, bst := .bIdle }) ∧
  (∀ o, retryable State.reset.cfg.retryOn o = true ↔ o = .timeout ∨ o = .nack)

/-- A command report the block does not send next is not admitted: the block has no way to send one (R78 (a), R91 (b); the model's
choice, log 9). -/
def Obligations.OnlyTheNextReportIsSent : Prop :=
  ∀ (i : Instr) (tx : Report) (s : State), encode s.cfg i = some (.cmd tx) → nextReport s.cfg s.brg ≠ some tx →
    exec i s = .refused .notAdmitted

/-! ### Responses (R68 to R71) -/

/-- R98, R99, R100. Responses to the command in flight, in `B_CMD`. -/
def Obligations.ResponsesToACommand : Prop :=
  ∀ s : State, s.cfg.legal = true → s.brg.bst = .bCmd →
    (∀ rest : List Byte, rest.length + 2 = s.cfg.reportSize →
      exec (.rspAccepted (cmdCode s.cfg s.brg.op) rest) s
        = .next (answered s (inFlightReport s.cfg s.brg) (some (cmdCode s.cfg s.brg.op :: s.cfg.resOk :: rest))
            { s.brg with k := 0, bst := .bStat }) ∧
      exec (.rspBusy (cmdCode s.cfg s.brg.op) rest) s
        = .next (settle (answered s (inFlightReport s.cfg s.brg) (some (cmdCode s.cfg s.brg.op :: s.cfg.resBusy :: rest))
            (attemptFail s.cfg .busy s.brg)))) ∧
    (∀ rx : Option Report, Instr.wellFormed s.cfg (.rspNoAnswer rx) = true →
      exec (.rspNoAnswer rx) s
        = .next (settle (answered s (inFlightReport s.cfg s.brg) rx (attemptFail s.cfg .timeout s.brg))))

/-- R103 to R106. Responses to a status request, in `B_STAT`. -/
def Obligations.ResponsesToAStatusRequest : Prop :=
  ∀ (s : State) (rest : List Byte) (rx : Option Report), s.cfg.legal = true → s.brg.bst = .bStat →
    s.brg.k < s.cfg.statusPollMax → rest.length + 3 = s.cfg.reportSize → Instr.wellFormed s.cfg (.rspNoAnswer rx) = true →
    exec (.rspStatusInProgress rest) s
      = .next (settle (answered s (statusReport s.cfg)
          (some (s.cfg.cmdGetStatus :: s.cfg.resOk :: s.cfg.stInProgress :: rest))
          (stillPolling s.cfg { s.brg with k := s.brg.k + 1 }))) ∧
    exec (.rspStatusComplete rest) s
      = .next (settle (answered s (statusReport s.cfg)
          (some (s.cfg.cmdGetStatus :: s.cfg.resOk :: s.cfg.stComplete :: rest))
          (if hasRead s.brg.op then { s.brg with k := s.brg.k + 1, bst := .bData }
            else { s.brg with k := s.brg.k + 1, res := .ok, bst := .bIdle }))) ∧
    exec (.rspStatusErrNack rest) s
      = .next (settle (answered s (statusReport s.cfg)
          (some (s.cfg.cmdGetStatus :: s.cfg.resOk :: s.cfg.stErrNack :: rest))
          (attemptFail s.cfg .nack { s.brg with k := s.brg.k + 1 }))) ∧
    exec (.rspStatusErrTimeout rest) s
      = .next (settle (answered s (statusReport s.cfg)
          (some (s.cfg.cmdGetStatus :: s.cfg.resOk :: s.cfg.stErrTimeout :: rest))
          (attemptFail s.cfg .timeout { s.brg with k := s.brg.k + 1 }))) ∧
    exec (.rspNoAnswer rx) s
      = .next (settle (answered s (statusReport s.cfg) rx (stillPolling s.cfg { s.brg with k := s.brg.k + 1 })))

/-- R107. Responses to a data request, in `B_DATA`. (That `rd` beyond the reply keeps its bytes is the model's choice, log 22.) -/
def Obligations.ResponsesToADataRequest : Prop :=
  ∀ (s : State), s.cfg.legal = true → s.brg.bst = .bData →
    (∀ (b2 n : Byte) (data : List Byte), data.length + 4 = s.cfg.reportSize → n.toNat = s.brg.rl →
      exec (.rspData b2 n data) s
        = .next (settle (answered s (dataReport s.cfg) (some (s.cfg.cmdGetData :: s.cfg.resOk :: b2 :: n :: data))
            { s.brg with
              rd := data.take s.brg.rl ++ s.brg.rd.drop (min s.brg.rl s.cfg.maxPayload)
              res := .ok, bst := .bIdle }))) ∧
    (∀ (b2 n : Byte) (data : List Byte), data.length + 4 = s.cfg.reportSize → n.toNat ≠ s.brg.rl →
      exec (.rspData b2 n data) s
        = .next (settle (answered s (dataReport s.cfg) (some (s.cfg.cmdGetData :: s.cfg.resOk :: b2 :: n :: data))
            (attemptFail s.cfg .lenMismatch s.brg)))) ∧
    (∀ rest : List Byte, rest.length + 2 = s.cfg.reportSize →
      exec (.rspNoData rest) s
        = .next (settle (answered s (dataReport s.cfg) (some (s.cfg.cmdGetData :: s.cfg.resNoData :: rest))
            (attemptFail s.cfg .lenMismatch s.brg)))) ∧
    (∀ rx : Option Report, Instr.wellFormed s.cfg (.rspNoAnswer rx) = true →
      exec (.rspNoAnswer rx) s
        = .next (settle (answered s (dataReport s.cfg) rx (attemptFail s.cfg .timeout s.brg))))

/-- R71, R227. A report whose first byte is not the code of the command being answered is no answer to it; and with no
exchange next nothing is received, so no register changes (the second clause is the model's reading of R208, log 10). -/
def Obligations.ResponseToAnotherCommandIsNoAnswer : Prop :=
  (∀ (c : Config) (r : Report) (echo code : Byte) (rest : List Byte), r = echo :: rest → echo ≠ code →
    classify c r code = .noAnswer) ∧
  (∀ (i : Instr) (rx : Option Report) (s : State), encode s.cfg i = some (.rsp rx) → exchangeNext s = false →
    exec i s = .next s)

/-! ### Driver requests (R91, R92, R113 to R118) -/

/-- R117. Each driver operation, run to its end, is the big-step operation of R117: same outcome, same reply bytes, same
transport calls, same answers consumed; and it writes the registers of `BRG` alone. (That `rd` beyond the reply keeps its bytes
is the model's choice, log 22. `4 ≤ MAX_WR` follows from R5.) -/
def Obligations.RequestsAgreeWithBigStep : Prop :=
  ∀ (i : Instr) (q : Request) (s : State), requestOf i = some q → s.brg.bst = .bIdle → argsOk s.cfg q = true →
    1 ≤ s.cfg.statusPollMax → 4 ≤ s.cfg.maxPayload →
    ∃ t, exec i s = .next t ∧ onlyBridge s t ∧ t.brg.bst = .bIdle ∧ latchedRequest t.brg = q ∧
      t.brg.res = (bigStepOp s.cfg q s.world).1 ∧
      t.brg.rd = replyBytes (bigStepOp s.cfg q s.world).2.1 s.brg.rd ∧
      t.world = (bigStepOp s.cfg q s.world).2.2.world ∧
      t.hid = s.hid ++ (bigStepOp s.cfg q s.world).2.2.calls

/-- R118. An operation always ends, within the bound: it makes at least one exchange and at most
(1 + `RETRY_MAX`) * (`STATUS_POLL_MAX` + 2), and after them it is no longer in flight. -/
def Obligations.OperationExchangesAreBounded : Prop :=
  ∀ (i : Instr) (q : Request) (s : State), requestOf i = some q → s.brg.bst = .bIdle → argsOk s.cfg q = true →
    ∃ t calls, exec i s = .next t ∧ t.hid = s.hid ++ calls ∧
      1 ≤ sendCount calls ∧ sendCount calls ≤ 2 * (s.cfg.statusPollMax + 2) ∧
      (1 ≤ s.cfg.statusPollMax → t.brg.bst = .bIdle ∧ exchangeNext t = false)

/-- R91. When a driver request is refused: not admitted unless `bst` = `B_IDLE`; refused with BADARG exactly outside the
bounds of its operation, `MAX_WR` = `MAX_RD` being 60 with the defaults. (That a request out of bounds made while `bst` is not
`B_IDLE` is answered as not admitted, and not with BADARG, is the model's choice, log 27: R91 does not rank (a) and (b).) -/
def Obligations.RequestsOutOfBoundsAreRefused : Prop :=
  (∀ (i : Instr) (q : Request) (s : State), requestOf i = some q → s.brg.bst ≠ .bIdle →
    exec i s = .refused .notAdmitted) ∧
  (∀ (hz : BitVec 32) (s : State), exec (.configure hz) s ≠ .refused .badArg) ∧
  (∀ (ta : Byte) (wd : List Byte) (s : State), s.brg.bst = .bIdle →
    (exec (.write ta wd) s = .refused .badArg ↔ ¬ (ta.toNat ≤ 0x7F ∧ 1 ≤ wd.length ∧ wd.length ≤ s.cfg.maxPayload))) ∧
  (∀ (ta : Byte) (rl : Nat) (s : State), s.brg.bst = .bIdle →
    (exec (.read ta rl) s = .refused .badArg ↔ ¬ (ta.toNat ≤ 0x7F ∧ 1 ≤ rl ∧ rl ≤ s.cfg.maxPayload))) ∧
  (∀ (ta : Byte) (wd : List Byte) (rl : Nat) (s : State), s.brg.bst = .bIdle →
    (exec (.writeRead ta wd rl) s = .refused .badArg ↔
      ¬ (ta.toNat ≤ 0x7F ∧ 1 ≤ wd.length ∧ wd.length ≤ s.cfg.maxPayload ∧ 1 ≤ rl ∧ rl ≤ s.cfg.maxPayload))) ∧
  State.reset.cfg.maxPayload = 60

/-- R92, R93. The start of an admitted request loads the latch so that the report in flight is the request's command report,
clears `try`, and is in `B_CMD`; it leaves `k`, `res` and `rd`. -/
def Obligations.StartLoadsTheRequest : Prop :=
  ∀ (c : Config) (q : Request) (b : BridgeRegs), 4 ≤ c.maxPayload → argsOk c q = true →
    latchedRequest (startOp c q b) = q ∧
    inFlightReport c (startOp c q b) = commandReport c (cmdCode c q.op) q.ta q.w (BitVec.ofNat 8 q.r) ∧
    (startOp c q b).tries = 0#1 ∧ (startOp c q b).bst = .bCmd ∧
    (startOp c q b).k = b.k ∧ (startOp c q b).res = b.res ∧ (startOp c q b).rd = b.rd

/-! ### Expander operations (R130 to R137) -/

/-- R131, R132. INIT_DIR and INIT_PU are the driver writes of the register address and the two bytes of the value, low half
first, and write the registers of `BRG` alone. -/
def Obligations.InitWritesExpandToDriverWrites : Prop :=
  ∀ s : State, s.brg.bst = .bIdle → s.cfg.expAddr.toNat ≤ 0x7F → 4 ≤ s.cfg.maxPayload →
    (∃ t, exec .initDir s = .next t ∧ onlyBridge s t ∧
      exec (.write s.cfg.expAddr
        [s.cfg.regDir, s.cfg.dirAllInput.extractLsb' 0 8, s.cfg.dirAllInput.extractLsb' 8 8]) s = .next t) ∧
    (∃ t, exec .initPu s = .next t ∧ onlyBridge s t ∧
      exec (.write s.cfg.expAddr
        [s.cfg.regPullup, s.cfg.pullupAllOn.extractLsb' 0 8, s.cfg.pullupAllOn.extractLsb' 8 8]) s = .next t)

/-- R133 to R135. READPORT is one write-then-read of two bytes from `REG_PORT`, and differs from it in `PORT` alone; on OK `PORT`
is {rd[1], rd[0]}, else it keeps its value; the slot registers are untouched. -/
def Obligations.ReadPortCapturesLowByteFirst : Prop :=
  ∀ s : State, s.brg.bst = .bIdle → s.cfg.legal = true →
    ∃ t u, exec .readPort s = .next t ∧ exec (.writeRead s.cfg.expAddr [s.cfg.regPort] 2) s = .next u ∧
      t = { u with port := t.port } ∧ onlyBridge s u ∧
      t.brg.res = (bigStepOp s.cfg ⟨.writeRead, s.cfg.expAddr, [s.cfg.regPort], 2⟩ s.world).1 ∧
      (t.brg.res = .ok → ∃ a b : Byte, t.brg.rd.take 2 = [a, b] ∧
        (bigStepOp s.cfg ⟨.writeRead, s.cfg.expAddr, [s.cfg.regPort], 2⟩ s.world).2.1 = some [a, b] ∧
        t.port.extractLsb' 0 8 = a ∧ t.port.extractLsb' 8 8 = b) ∧
      (t.brg.res ≠ .ok → t.port = s.port)

/-- R130. INITEXPANDER from `S_INIT_DIR`: the direction write, and only where that ended OK the pull-up write, each with the
sequencer's reaction at its end. -/
def Obligations.InitExpanderIsTheTwoWritesInOrder : Prop :=
  ∀ s : State, s.seq.sst = .sInitDir → s.brg.bst = .bIdle → s.cfg.legal = true →
    ∃ t u, exec .initDir s = .next t ∧ exec .initExpander s = .next u ∧
      (t.brg.res ≠ .ok → u = react t) ∧
      (t.brg.res = .ok → ∃ v, exec .initPu (react t) = .next v ∧ u = react v)

/-! ### Start-up, poll cycle, control (R170 to R185) -/

/-- R170 to R173, R178, R184, R185, R194. A start-up pass from `S_OPEN`, by the open's answer and by the outcome of its three
operations in turn (`bigStepPass`: configure, INIT_DIR, INIT_PU, the first that does not end OK ending the pass). All OK ends in
`S_IDLE` with the reconnect allowance restored and `SNAP` and `ERR` untouched; a bus outcome is InitError and IOERR the fatal
USB error with its one reconnect; BADSIZE and DeviceNotFound are fatal. It never touches the slot registers, the port or the
event traces. -/
def Obligations.BootEndsIdleReopenOrDead : Prop :=
  ∀ s : State, s.seq.sst = .sOpen → s.brg.bst = .bClosed → s.cfg.legal = true →
    ∃ t, exec .boot s = .next t ∧ sameSlots s t ∧ t.port = s.port ∧ t.out = s.out ∧ t.cfg = s.cfg ∧
      (s.world.openAnswer = .deviceNotFound →
        t.seq = ⟨.sDead, s.seq.rc, ⟨.deviceNotFound, .ok⟩⟩ ∧ t.brg = s.brg ∧ t.slt.snap.stale = true ∧
        t.hid = s.hid ++ [.opened .deviceNotFound]) ∧
      (s.world.openAnswer = .ok →
        let x := bigStepPass s.cfg { s.world.afterOpen with handle := true }
        (x.1 = .ok →
          t.seq = ⟨.sIdle, false, s.seq.err⟩ ∧ t.brg.bst = .bIdle ∧ t.slt = s.slt ∧
          t.hid = s.hid ++ [.opened .ok] ++ x.2.calls ∧ t.world = x.2.world) ∧
        (x.1 ≠ .ok →
          t.brg.bst = .bClosed ∧ t.brg.res = x.1 ∧ t.slt.snap.stale = true ∧
          t.hid = s.hid ++ [.opened .ok] ++ x.2.calls ++ [.closed] ∧
          t.world = { x.2.world with handle := false }) ∧
        (x.1 = .timeout ∨ x.1 = .nack ∨ x.1 = .busy ∨ x.1 = .lenMismatch →
          t.seq = ⟨.sDead, s.seq.rc, ⟨.initError, x.1⟩⟩) ∧
        (x.1 = .badSize → t.seq = ⟨.sDead, s.seq.rc, ⟨.invalidReportSize, .badSize⟩⟩) ∧
        (x.1 = .ioErr → s.seq.rc = false → t.seq = ⟨.sOpen, true, ⟨.ioError, .ioErr⟩⟩) ∧
        (x.1 = .ioErr → s.seq.rc = true → t.seq = ⟨.sDead, true, ⟨.ioError, .ioErr⟩⟩) ∧
        x.1 ≠ .badArg)

/-- R174 to R177, R192, R193, R196, R197. A poll cycle from `S_IDLE`: one `READPORT`, whose outcome decides everything. (The time
of the cycle is `now` of the state before POLL: that POLL, run whole, keeps the inputs as sampled before it is the model's
reading, log 12.) -/
def Obligations.PollCycleByOutcome : Prop :=
  ∀ s : State, s.seq.sst = .sIdle → s.brg.bst = .bIdle → s.seq.rc = false → s.cfg.legal = true →
    ∃ t, exec .poll s = .next t ∧ t.cfg = s.cfg ∧
      (let x := bigStepOp s.cfg (readPortRequest s.cfg) s.world
       let now := s.world.inp.now % 2 ^ s.cfg.timeW
       t.brg.res = x.1 ∧
       (x.1 = .ok → ∃ a b : Byte, x.2.1 = some [a, b] ∧ t.port = b ++ a ∧ t.seq.sst = .sIdle ∧
          t.brg.bst = .bIdle ∧ t.seq.rc = false ∧ t.seq.err = ⟨.noErr, .ok⟩ ∧ t.slt.snap.stale = false ∧
          t.slt.snap.ts = now ∧ t.slt.snap.st = t.slt.commit ∧
          t.slt = (slotCycle now { s with port := b ++ a }).slt ∧
          t.out = (slotCycle now { s with port := b ++ a }).out ∧ t.hid = s.hid ++ x.2.2.calls) ∧
       (x.1 ≠ .ok → sameSlots s t ∧ t.slt.snap.stale = true ∧ t.port = s.port ∧ t.out = s.out) ∧
       (x.1 = .timeout → t.seq.err = ⟨.busTimeout, .timeout⟩) ∧
       (x.1 = .nack ∨ x.1 = .busy ∨ x.1 = .lenMismatch → t.seq.err = ⟨.busError, x.1⟩) ∧
       (x.1 = .timeout ∨ x.1 = .nack ∨ x.1 = .busy ∨ x.1 = .lenMismatch →
          t.seq.sst = .sIdle ∧ t.brg.bst = .bIdle ∧ t.seq.rc = false ∧ t.hid = s.hid ++ x.2.2.calls) ∧
       (x.1 = .ioErr → t.seq = ⟨.sOpen, true, ⟨.ioError, .ioErr⟩⟩ ∧ t.brg.bst = .bClosed ∧
          t.hid = s.hid ++ x.2.2.calls ++ [.closed]) ∧
       (x.1 = .badSize → t.seq = ⟨.sDead, false, ⟨.invalidReportSize, .badSize⟩⟩ ∧ t.brg.bst = .bClosed ∧
          t.hid = s.hid ++ x.2.2.calls ++ [.closed]) ∧
       x.1 ≠ .badArg)

/-- R174, R181. A tick or a stop raised outside `S_IDLE` is dropped: nothing changes. -/
def Obligations.TickAndStopOutsideIdleAreDropped : Prop :=
  ∀ s : State, s.seq.sst ≠ .sIdle → exec .poll s = .next s ∧ exec .stop s = .next s

/-- R170, R195. The open: on success the handle is held and the pass begins; DeviceNotFound is fatal, with no close. -/
def Obligations.OpenBeginsThePassOrIsFatal : Prop :=
  ∀ s : State, s.seq.sst = .sOpen → s.brg.bst = .bClosed →
    (s.world.openAnswer = .ok →
      exec .openBridge s = .next { s with
        seq := { s.seq with sst := .sConfig }
        brg := { s.brg with bst := .bIdle }
        hid := s.hid ++ [.opened .ok]
        world := { s.world.afterOpen with handle := true } }) ∧
    (s.world.openAnswer = .deviceNotFound →
      exec .openBridge s = .next { s with
        seq := { s.seq with sst := .sDead, err := ⟨.deviceNotFound, .ok⟩ }
        slt := { s.slt with snap := { s.slt.snap with stale := true } }
        hid := s.hid ++ [.opened .deviceNotFound]
        world := s.world.afterOpen })

/-- R178. RECONNECT in the four states a fatal error can occur in: the handle is closed, and the first error gets one pass,
the second is final; slot state is kept. -/
def Obligations.ReconnectOnceThenDead : Prop :=
  ∀ s : State, (s.seq.sst = .sConfig ∨ s.seq.sst = .sInitDir ∨ s.seq.sst = .sInitPu ∨ s.seq.sst = .sRead) →
    s.brg.bst ≠ .bClosed →
    exec .reconnect s = .next { s with
      seq := (if s.seq.rc then { s.seq with sst := .sDead } else { s.seq with sst := .sOpen, rc := true })
      brg := { s.brg with bst := .bClosed }
      hid := s.hid ++ [.closed]
      world := { s.world with handle := false } }

/-- R181. STOP in `S_IDLE`: close, `S_OFF`; `SNAP`, `ERR` and the slot registers keep their values. -/
def Obligations.StopClosesAndTurnsOff : Prop :=
  ∀ s : State, s.seq.sst = .sIdle → s.brg.bst = .bIdle →
    exec .stop s = .next { s with
      seq := { s.seq with sst := .sOff }
      brg := { s.brg with bst := .bClosed }
      hid := s.hid ++ [.closed]
      world := { s.world with handle := false } }

/-- R215, R216, R26, R33. RESET in any state: the registers R33 gives a value, the traces empty, a held handle closed, the
static inputs sampled. (The unspecified latch and `rd` are not spoken of, log 5.) -/
def Obligations.ResetValues : Prop :=
  ∀ s : State, s.world.inp.debounceN ≠ 0#8 →
    ∃ t, exec .reset s = .next t ∧
      t.seq = { sst := .sOpen, rc := false, err := ⟨.noErr, .ok⟩ } ∧
      t.brg.bst = .bClosed ∧ t.brg.tries = 0#1 ∧ t.brg.k = 0 ∧ t.brg.res = .ok ∧ t.port = 0xFFFF#16 ∧
      (∀ i, t.slt.commit.get i = .unknown ∧ t.slt.cand.get i = .unknown ∧ t.slt.cnt.get i = 0#8
        ∧ t.slt.snap.st.get i = .unknown) ∧
      t.slt.snap.ts = 0 ∧ t.slt.snap.stale = true ∧ t.out = [] ∧ t.hid = [] ∧
      t.cfg = { s.cfg with debounceN := s.world.inp.debounceN, notifyEn := s.world.inp.notifyEn } ∧
      (s.brg.bst ≠ .bClosed → t.world.handle = false)

/-- R76, R178, R179, R190, R191. Raising an error: `SNAP.stale` and `ERR` are written, then the class's transition; slot values,
port and event traces are untouched by every class. And the class of each outcome (R76). -/
def Obligations.RaisingAnError : Prop :=
  (∀ (e : ErrClass) (o : BusOutcome) (s : State),
    (raise e o s).seq.err = ⟨e, o⟩ ∧ (raise e o s).slt.snap.stale = true ∧ sameSlots s (raise e o s) ∧
    (raise e o s).port = s.port ∧ (raise e o s).out = s.out ∧ (raise e o s).cfg = s.cfg ∧
    (e = .busTimeout ∨ e = .busError →
      (raise e o s).seq.sst = .sIdle ∧ (raise e o s).seq.rc = s.seq.rc ∧ (raise e o s).brg = s.brg ∧
      (raise e o s).hid = s.hid) ∧
    (e = .deviceNotFound ∨ e = .initError ∨ e = .invalidReportSize ∨ e = .invalidArg →
      (raise e o s).seq.sst = .sDead ∧ (raise e o s).seq.rc = s.seq.rc ∧ (raise e o s).brg.bst = .bClosed ∧
      (raise e o s).hid = s.hid ++ (if s.brg.bst = .bClosed then [] else [.closed])) ∧
    (e = .ioError → (raise e o s).brg.bst = .bClosed ∧ (raise e o s).seq.rc = true ∧
      (raise e o s).seq.sst = (if s.seq.rc then .sDead else .sOpen) ∧
      (raise e o s).hid = s.hid ++ (if s.brg.bst = .bClosed then [] else [.closed]))) ∧
  errOf .ok = .noErr ∧ errOf .timeout = .busTimeout ∧ errOf .nack = .busError ∧ errOf .busy = .busError ∧
  errOf .lenMismatch = .busError ∧ errOf .ioErr = .ioError ∧ errOf .badSize = .invalidReportSize ∧
  errOf .badArg = .invalidArg

/-! ### Slot engine (R145 to R166) -/

/-- R77, R146. The four LED pairs and what they decode to; the decoder writes no register of the block (where its output is
held is the model's choice, log 16). -/
def Obligations.LedPairsDecode : Prop :=
  ∀ s : State,
    exec .decodeEmpty s = .next { s with scratch := { s.scratch with dec := .empty } } ∧
    exec .decodeCharging s = .next { s with scratch := { s.scratch with dec := .charging } } ∧
    exec .decodeFull s = .next { s with scratch := { s.scratch with dec := .full } } ∧
    exec .decodeError s = .next { s with scratch := { s.scratch with dec := .error } } ∧
    decodeLeds true true = .empty ∧ decodeLeds false true = .charging ∧ decodeLeds true false = .full ∧
    decodeLeds false false = .error ∧
    decode s.cfg (.pair 0b11#2) = .ok .decodeEmpty ∧ decode s.cfg (.pair 0b10#2) = .ok .decodeCharging ∧
    decode s.cfg (.pair 0b01#2) = .ok .decodeFull ∧ decode s.cfg (.pair 0b00#2) = .ok .decodeError

/-- R149. The committed state is decoded again: the candidate is dropped, the count cleared, no event. -/
def Obligations.DebounceSameStateDropsCandidate : Prop :=
  ∀ (i : Fin 6) (d : SlotState) (s : State), d = s.slt.commit.get i →
    exec (.debounce i d) s = .next { s with
      slt := { s.slt with
        commit := s.slt.commit, cand := s.slt.cand.set i (s.slt.commit.get i), cnt := s.slt.cnt.set i 0#8 }
      scratch := { s.scratch with ev := s.scratch.ev.set i none } }

/-- R150, R151, R152. Another state is decoded: the observation count is the candidate's count plus one, or 1 for a new
candidate; at `DEBOUNCE_N` the state is committed and its event handed on, below it the count is kept. -/
def Obligations.DebounceCountsAndCommits : Prop :=
  ∀ (i : Fin 6) (d : SlotState) (s : State) (n : Nat), d ≠ s.slt.commit.get i →
    (s.slt.cnt.get i).toNat < 255 →
    n = (if d = s.slt.cand.get i ∧ 0 < (s.slt.cnt.get i).toNat then (s.slt.cnt.get i).toNat + 1 else 1) →
    (s.cfg.debounceN.toNat ≤ n →
      exec (.debounce i d) s = .next { s with
        slt := { s.slt with
          commit := s.slt.commit.set i d, cand := s.slt.cand.set i d, cnt := s.slt.cnt.set i 0#8 }
        scratch := { s.scratch with ev := s.scratch.ev.set i (some (s.slt.commit.get i, d)) } }) ∧
    (n < s.cfg.debounceN.toNat →
      exec (.debounce i d) s = .next { s with
        slt := { s.slt with
          commit := s.slt.commit, cand := s.slt.cand.set i d, cnt := s.slt.cnt.set i (BitVec.ofNat 8 n) }
        scratch := { s.scratch with ev := s.scratch.ev.set i none } })

/-- R152. The debounce property: `DEBOUNCE_N` consecutive observations of a state commit it, and fewer leave the committed
state unchanged, whatever the candidate was before, as long as it was another state or none. -/
def Obligations.DebounceCommitsAfterExactlyN : Prop :=
  ∀ (nn : BitVec 8) (d commit cand : SlotState) (cnt : BitVec 8), 1 ≤ nn.toNat → d ≠ commit →
    (cnt = 0#8 ∨ cand ≠ d) →
    (∀ n, n < nn.toNat → (debounceTimes nn d n (commit, cand, cnt)).1 = commit) ∧
    (∀ n, nn.toNat ≤ n → debounceTimes nn d n (commit, cand, cnt) = (d, d, 0#8))

/-- R145, R148. Slots are independent: the debounce of one slot leaves the registers of every other, the snapshot, the port
and the traces. -/
def Obligations.DebounceLeavesOtherSlots : Prop :=
  ∀ (i j : Fin 6) (d : SlotState) (s : State), j ≠ i →
    ∃ t, exec (.debounce i d) s = .next t ∧
      t.slt.commit.get j = s.slt.commit.get j ∧ t.slt.cand.get j = s.slt.cand.get j ∧
      t.slt.cnt.get j = s.slt.cnt.get j ∧ t.slt.snap = s.slt.snap ∧ t.port = s.port ∧ t.out = s.out ∧
      t.seq = s.seq ∧ t.brg = s.brg ∧ t.hid = s.hid

/-- R155, R11. PUBLISH writes the six states, the time (`TIME_W` bits of it) and `stale` in one step, and nothing else. -/
def Obligations.PublishReplacesTheSnapshotWhole : Prop :=
  ∀ (t : Time) (s : State),
    exec (.publish t) s
      = .next { s with slt := { s.slt with snap := { st := s.slt.commit, ts := t % 2 ^ s.cfg.timeW, stale := false } } }

/-- R156, R161, R162, R164. DISPATCH appends, in ascending slot order, each event handed over and right after it its notify
request if the event is into FULL and notification is enabled; no register of the block changes. (That DISPATCH then drops the
events handed over is the model's choice, log 16: `ev` is no state between steps.) -/
def Obligations.DispatchEmitsInSlotOrder : Prop :=
  ∀ (t : Time) (s : State),
    let v := t % 2 ^ s.cfg.timeW
    exec (.dispatch t) s = .next { s with
      out := s.out ++ (emitted s v 0 ++ emitted s v 1 ++ emitted s v 2 ++ emitted s v 3 ++ emitted s v 4 ++ emitted s v 5)
      scratch := { s.scratch with ev := Six.fill none } }

/-- R162, R164. NOTIFY: exactly one request for an event into FULL when enabled, with the six committed states; else
nothing. -/
def Obligations.NotifyOnlyIntoFull : Prop :=
  ∀ (i : Fin 6) (prev new : SlotState) (t : Time) (s : State),
    (s.cfg.notifyEn = true ∧ new = .full →
      exec (.notify i prev new t) s = .next { s with out := s.out ++ [.nt ⟨i, s.slt.commit, t % 2 ^ s.cfg.timeW⟩] }) ∧
    (s.cfg.notifyEn = false ∨ new ≠ .full → exec (.notify i prev new t) s = .next s)

/-- R136, R145, R146, R155, R160. After a slot cycle the snapshot is fresh, equals the committed states, and bears the cycle's
time; each slot's registers are its debounce of what its own two pins, `PORT[PIN_CHG[i]]` and `PORT[PIN_FULL[i]]`, decode to. -/
def Obligations.SlotCycleDebouncesEverySlot : Prop :=
  ∀ (t : Time) (s : State) (i : Fin 6),
    (slotCycle t s).slt.snap = { st := (slotCycle t s).slt.commit, ts := t, stale := false } ∧
    (let c := s.port.getLsbD (s.cfg.pinChg.get i).val
     let f := s.port.getLsbD (s.cfg.pinFull.get i).val
     let d : SlotState := if c then (if f then .empty else .full) else (if f then .charging else .error)
     let r := debounceOne s.cfg.debounceN d (s.slt.commit.get i) (s.slt.cand.get i) (s.slt.cnt.get i)
     decodedSlot s i = d ∧ (slotCycle t s).slt.commit.get i = r.commit ∧ (slotCycle t s).slt.cand.get i = r.cand ∧
       (slotCycle t s).slt.cnt.get i = r.cnt)

/-- R156, R157, R159, R161, R162, R163. The outputs of a cycle are exactly, in ascending slot order, the event of each slot whose
debounce committed and right after it its notify request where the event is into FULL and notification is enabled. So every
event goes from the state committed before to a different decoded one, at most one event a slot; every notify request follows
from an event of the cycle into FULL and shows that slot FULL. -/
def Obligations.CycleEventsAreRealTransitions : Prop :=
  ∀ (t : Time) (s : State), ∃ new : List Output, (slotCycle t s).out = s.out ++ new ∧
    new = transitionOutput s (slotCycle t s) t 0 ++ transitionOutput s (slotCycle t s) t 1 ++
      transitionOutput s (slotCycle t s) t 2 ++ transitionOutput s (slotCycle t s) t 3 ++
      transitionOutput s (slotCycle t s) t 4 ++ transitionOutput s (slotCycle t s) t 5 ∧
    (∀ e, Output.ev e ∈ new → e.prev = s.slt.commit.get e.slot ∧ e.new = decodedSlot s e.slot ∧
      e.prev ≠ e.new ∧ e.new ≠ .unknown ∧ e.ts = t) ∧
    (∀ i : Fin 6, (new.filter (fun o => match o with | .ev e => decide (e.slot = i) | .nt _ => false)).length ≤ 1) ∧
    (∀ n, Output.nt n ∈ new → s.cfg.notifyEn = true ∧ n.ts = t ∧ n.summary = (slotCycle t s).slt.commit ∧
      n.summary.get n.slot = .full ∧ ∃ e, Output.ev e ∈ new ∧ e.slot = n.slot ∧ e.new = .full)

/-- R158. Idempotence: where every slot decodes to its committed state, a cycle emits nothing and commits nothing. -/
def Obligations.IdenticalSnapshotEmitsNothing : Prop :=
  ∀ (t : Time) (s : State), (∀ i, decodedSlot s i = s.slt.commit.get i) →
    (slotCycle t s).out = s.out ∧ (slotCycle t s).slt.commit = s.slt.commit ∧
    (slotCycle t s).slt.cnt = Six.fill 0#8

/-- R137. Pins no slot selects are ignored: two port values that agree on the selected pins give the same slot registers and
the same outputs. -/
def Obligations.UnselectedPinsAreIgnored : Prop :=
  ∀ (t : Time) (s : State) (p : BitVec 16),
    (∀ i : Fin 6, p.getLsbD (s.cfg.pinChg.get i).val = s.port.getLsbD (s.cfg.pinChg.get i).val ∧
      p.getLsbD (s.cfg.pinFull.get i).val = s.port.getLsbD (s.cfg.pinFull.get i).val) →
    slotCycle t { s with port := p } = { slotCycle t s with port := p }

/-- R165, R12, R13, R23, R24, R74 to R76. The query returns `SNAP` (with `ERR` and `LINK`) from one instant, in every state, and
changes no register of the block; and the packed views of `SNAP` and `ERR` and the codes of the enumerations are those the rules
give. -/
def Obligations.QueryReturnsTheSnapshot : Prop :=
  (∀ s : State, ∃ t, exec .getSnapshot s = .next t ∧ sameBlock s t ∧
    t.world = { s.world with
      replies := s.world.replies ++ [⟨s.slt.snap, s.seq.err, ⟨s.seq.sst, s.seq.rc, s.brg.bst⟩⟩] }) ∧
  (∀ (w : Nat) (p : Snapshot),
    (∀ i : Fin 6, (p.packed w).extractLsb' (3 * i.val) 3 = slotCode (p.st.get i)) ∧
    (p.packed w).getLsbD 18 = p.stale ∧ (p.packed w).extractLsb' 19 w = BitVec.ofNat w p.ts) ∧
  (∀ e : ErrReg, e.packed.extractLsb' 0 3 = errClassCode e.cls ∧ e.packed.extractLsb' 3 3 = outcomeCode e.det) ∧
  [SlotState.unknown, .empty, .charging, .full, .error].map slotCode = [0#3, 1#3, 2#3, 3#3, 4#3] ∧
  [BusOutcome.ok, .lenMismatch, .timeout, .busy, .nack, .ioErr, .badSize, .badArg].map outcomeCode
    = [0#3, 1#3, 2#3, 3#3, 4#3, 5#3, 6#3, 7#3] ∧
  [ErrClass.noErr, .deviceNotFound, .busTimeout, .busError, .initError, .invalidReportSize, .ioError, .invalidArg].map
    errClassCode = [0#3, 1#3, 2#3, 3#3, 4#3, 5#3, 6#3, 7#3] ∧
  [SeqState.sOpen, .sConfig, .sInitDir, .sInitPu, .sIdle, .sRead, .sDead, .sOff].map SeqState.code
    = [0#3, 1#3, 2#3, 3#3, 4#3, 5#3, 6#3, 7#3] ∧
  [BridgeState.bClosed, .bIdle, .bCmd, .bStat, .bData].map BridgeState.code = [0#3, 1#3, 2#3, 3#3, 4#3]

/-! ### Steps of the machine -/

/-- A step runs the decoded command: where an exchange is next and its report decodes to `i`, the step is `exec i`, after the
inputs are sampled and a query answered (R90, R97, R102, R107; where a step fetches is the model's choice, log 1). -/
def Obligations.StepRunsTheDecodedCommand : Prop :=
  ∀ (s : State) (tx : Report) (i : Instr),
    (beginStep s).world.inp.rst = false →
    (beginStep s).seq.sst ≠ .sOpen → (beginStep s).seq.sst ≠ .sDead → (beginStep s).seq.sst ≠ .sOff →
    nextReport s.cfg s.brg = some tx → decode s.cfg (.cmd tx) = .ok i →
    step s = exec i (beginStep s)

/-- R182, R180, R181, R174. What a step does with the inputs: `rst` over everything; nothing in `S_DEAD` and `S_OFF`; in
`S_IDLE` `stop` before `tick`, and a tick starts the poll; `S_OPEN` opens. -/
def Obligations.StepHonoursInputsByPriority : Prop :=
  ∀ s : State,
    ((beginStep s).world.inp.rst = true → step s = exec .reset (beginStep s)) ∧
    ((beginStep s).world.inp.rst = false →
      (s.seq.sst = .sOpen → step s = exec .openBridge (beginStep s)) ∧
      (s.seq.sst = .sDead ∨ s.seq.sst = .sOff → step s = .next (beginStep s)) ∧
      (s.seq.sst = .sIdle → s.brg.bst = .bIdle →
        ((beginStep s).world.inp.stop = true → step s = exec .stop (beginStep s)) ∧
        ((beginStep s).world.inp.stop = false → (beginStep s).world.inp.tick = true →
          step s = .next (beginPoll (beginStep s))) ∧
        ((beginStep s).world.inp.stop = false → (beginStep s).world.inp.tick = false →
          step s = .next (beginStep s))))

/-- R171 to R174, R92. The sequencer's start steps make no transport call: the latch is loaded with the state's own request. -/
def Obligations.StartStepsLoadTheOwnRequest : Prop :=
  ∀ s : State, s.cfg.legal = true → s.brg.bst = .bIdle →
    (inPass s = true → (beginStep s).world.inp.rst = false →
      ∃ q, ownRequest s = some q ∧ step s = .next { beginStep s with brg := startOp s.cfg q s.brg }) ∧
    (s.seq.sst = .sIdle →
      beginPoll s = { s with
        seq := { s.seq with sst := .sRead }, brg := startOp s.cfg (readPortRequest s.cfg) s.brg })

/-- R170, R180, R182. In a step the beginning changes the world alone, and a raised query is answered whatever the block is
doing (that it is answered before the block moves is the model's choice, log 13). -/
def Obligations.BeginningAStepChangesNoRegister : Prop :=
  ∀ s : State, sameBlock s (beginStep s) ∧
    ((beginStep s).world.inp.query = true →
      (beginStep s).world.replies = s.world.replies ++ [queryReply s]) ∧
    ((beginStep s).world.inp.query = false → (beginStep s).world.replies = s.world.replies)

/-- The invariant holds after reset (R30, R33). -/
def Obligations.ResetStateIsSound : Prop := State.reset.Inv

/-- R30. Every step keeps the invariant. -/
def Obligations.StepKeepsInvariant : Prop :=
  ∀ s t : State, s.Inv → step s = .next t → t.Inv

/-- From every sound state a step answers a next state: the block never stops by itself, unless the host resets it with an
illegal `DEBOUNCE_N` (R118, R185, 93 U18; that reset refuses it is the model's choice, log 23). -/
def Obligations.SoundStateAlwaysSteps : Prop :=
  ∀ s : State, s.Inv → ((beginStep s).world.inp.rst = true → (beginStep s).world.inp.debounceN ≠ 0#8) →
    ∃ t, step s = .next t

/-- R183. Without `rst` a step changes `sst` only as the table of R183 lists; `S_DEAD` and `S_OFF` are left by `rst` alone. -/
def Obligations.SequencerFollowsItsTable : Prop :=
  ∀ s t : State, s.Inv → (beginStep s).world.inp.rst = false → step s = .next t →
    allowedTransition s.seq.sst t.seq.sst = true

/-- R20, R153. Without `rst` no step writes UNKNOWN into a committed state. -/
def Obligations.UnknownIsNeverReentered : Prop :=
  ∀ (s t : State) (i : Fin 6), s.Inv → (beginStep s).world.inp.rst = false → step s = .next t →
    s.slt.commit.get i ≠ .unknown → t.slt.commit.get i ≠ .unknown

/-- R154, R176, R177, R191, R199. Without `rst`, a step that changes a slot register or the values or time of the snapshot
leaves a fresh snapshot with `ERR` clear: no failure, start-up or reconnect touches them. -/
def Obligations.OnlySuccessfulPollsChangeSlots : Prop :=
  ∀ s t : State, s.Inv → (beginStep s).world.inp.rst = false → step s = .next t →
    sameSlots s t ∨
      (s.seq.sst = .sRead ∧ t.seq.sst = .sIdle ∧ t.slt.snap.stale = false ∧ t.seq.err = ⟨.noErr, .ok⟩ ∧
        t.brg.res = .ok ∧ t.slt.snap.ts = (beginStep s).world.inp.now % 2 ^ s.cfg.timeW)

/-- R27. Without `rst` the traces `EV`, `NT` and `HID` are append-only; and one step makes at most two transport calls, or
three where it also closes the handle (92 D2). -/
def Obligations.TracesOnlyGrow : Prop :=
  ∀ s t : State, s.Inv → (beginStep s).world.inp.rst = false → step s = .next t →
    (∃ new, t.out = s.out ++ new) ∧ (∃ calls, t.hid = s.hid ++ calls ∧ calls.length ≤ 3)

/-- R174 to R177, R90. The meaning of POLL, one big step (the model's reading, log 12), is what the machine's own steps do: with
the tick raised in the first step, no other input after it, and the same time on `now`, one or more steps reach the same block,
and there the operation has come to its end. -/
def Obligations.PollIsARunOfSteps : Prop :=
  ∀ (s : State) (now : Nat), s.Inv → s.seq.sst = .sIdle → s.world.inp.now = now →
    s.world.lines = { Inputs.quiet with tick := true, now := now } ::
      List.replicate (opFuel s.cfg) { Inputs.quiet with now := now } →
    ∃ t n u, exec .poll s = .next t ∧ 1 ≤ n ∧ n ≤ opFuel s.cfg + 1 ∧ Sys2Proof.core.run n s = .next u ∧
      sameBlock t u ∧ ownMoveNext u = false ∧ u.seq.sst ≠ .sRead

/-- R170 to R173, R185. The meaning of BOOT, one big step (the model's reading, log 12), is what the machine's own steps do from
`S_OPEN` with no input raised: one or more steps reach the same block, and there the pass has come to its end. -/
def Obligations.BootIsARunOfSteps : Prop :=
  ∀ s : State, s.Inv → s.seq.sst = .sOpen →
    s.world.lines = List.replicate (passFuel s.cfg + 1) Inputs.quiet →
    ∃ t n u, exec .boot s = .next t ∧ 1 ≤ n ∧ n ≤ passFuel s.cfg + 1 ∧ Sys2Proof.core.run n s = .next u ∧
      sameBlock t u ∧ ownMoveNext u = false ∧
      (u.seq.sst = .sIdle ∨ u.seq.sst = .sOpen ∨ u.seq.sst = .sDead)

/-! ### Encoding (R60 to R79) -/

/-- R60 to R67, 93 U21. Decoding the encoding of a well-formed command gives the command back, with every operand, whatever the
distinct codes of the instance are. -/
def Obligations.CommandsDecodeTheirEncoding : Prop :=
  ∀ (c : Config) (i : Instr) (tx : Report), c.legal = true → i.wellFormed c = true → encode c i = some (.cmd tx) →
    decode c (.cmd tx) = .ok i

/-- R61, R68 to R71. Decoding the encoding of a well-formed response gives the response back, ignored bytes included. -/
def Obligations.ResponsesDecodeTheirEncoding : Prop :=
  ∀ (c : Config) (i : Instr) (rx : Option Report), c.legal = true → i.wellFormed c = true →
    encode c i = some (.rsp rx) → decode c (.rsp rx) = .ok i

/-- R72, R77. Requests and LED pairs decode to themselves. -/
def Obligations.RequestsAndPairsDecodeTheirEncoding : Prop :=
  ∀ (c : Config) (i : Instr) (e : Encoded), (∃ k ta w r, e = .req k ta w r) ∨ (∃ fc, e = .pair fc) →
    encode c i = some e → decode c e = .ok i

/-- R60, R78 (a). A report the decoder accepts as a command is exactly that command's encoding: no byte of it is ignored. -/
def Obligations.AcceptedCommandIsItsEncoding : Prop :=
  ∀ (c : Config) (tx : Report) (i : Instr), c.legal = true → decode c (.cmd tx) = .ok i → encode c i = some (.cmd tx)

/-- R71 against the decoder: where a received report answers the command with this code, the row the decoder finds and the
class R71 gives agree. -/
def Obligations.DecoderAgreesWithClassify : Prop :=
  ∀ (c : Config) (r : Report) (code : Byte),
    (classify c r code = .accepted → ∃ rest, decodeResponse c (some r) = .rspAccepted code rest) ∧
    (classify c r code = .busy → ∃ rest, decodeResponse c (some r) = .rspBusy code rest) ∧
    (classify c r code = .status .inProgress → ∃ rest, decodeResponse c (some r) = .rspStatusInProgress rest) ∧
    (classify c r code = .status .complete → ∃ rest, decodeResponse c (some r) = .rspStatusComplete rest) ∧
    (classify c r code = .status .errNack → ∃ rest, decodeResponse c (some r) = .rspStatusErrNack rest) ∧
    (classify c r code = .status .errTimeout → ∃ rest, decodeResponse c (some r) = .rspStatusErrTimeout rest) ∧
    (classify c r code = .noData → ∃ rest, decodeResponse c (some r) = .rspNoData rest) ∧
    (∀ n bytes, classify c r code = .data n bytes → ∃ b2, decodeResponse c (some r) = .rspData b2 n bytes)

/-- R62 to R70, R77. Words written out from the spec's encodings, with the default parameters, decode to what they stand for. -/
def Obligations.WrittenWordsDecode : Prop :=
  decode {} (.cmd ([0x10#8, 0x00#8, 0x04#8, 0x00#8, 0xA0#8, 0x86#8, 0x01#8, 0x00#8] ++ List.replicate 56 0#8))
    = .ok (.setSpeed 100000#32) ∧
  decode {} (.cmd ([0x20#8, 0x20#8, 0x03#8, 0x00#8, 0x00#8, 0xFF#8, 0xFF#8] ++ List.replicate 57 0#8))
    = .ok (.i2cWrite 0x20#7 [0x00#8, 0xFF#8, 0xFF#8]) ∧
  decode {} (.cmd ([0x22#8, 0x20#8, 0x01#8, 0x02#8, 0x12#8] ++ List.replicate 59 0#8))
    = .ok (.i2cWriteRead 0x20#7 [0x12#8] 2#8) ∧
  decode {} (.rsp (some ([0x30#8, 0x00#8, 0x03#8] ++ List.replicate 61 0#8)))
    = .ok (.rspStatusErrNack (List.replicate 61 0#8)) ∧
  decode {} (.pair 0b10#2) = .ok .decodeCharging
end

