-- ==== Sys2Proof/Laws/Config.lean ====
section
/-! SUPPORT. Laws of the widths that follow a parameter, and what a legal instance gives (R5), said once. -/

namespace Sys2Proof

/-! ### Widths (R15, R17) -/

/-- A value up to `n` fits the `bitWidth n` bits of a register that counts from 0 to `n`. -/
theorem lt_two_pow_bitWidth {m n : Nat} (h : m ≤ n) : m < 2 ^ bitWidth n := by
  unfold bitWidth; split
  · omega
  · exact Nat.lt_of_le_of_lt h Nat.lt_log2_self

/-- With the defaults `wl`, `rl` and `k` have the six bits R15 and R17 give. -/
theorem default_widths : Config.lenWidth {} = 6 ∧ Config.kWidth {} = 6 := by decide

/-- A time value has `TIME_W` bits (R11). -/
theorem timeOf_lt (c : Config) (t : Nat) : c.timeOf t < 2 ^ c.timeW := Nat.mod_lt _ (Nat.two_pow_pos _)

/-! ### The bounds of R91, as propositions -/

theorem targetOk_iff (ta : Byte) : targetOk ta = true ↔ ta.toNat ≤ 127 := by
  simp [targetOk, BitVec.le_def]

theorem payloadOk_iff (c : Config) (wd : List Byte) :
    payloadOk c wd = true ↔ 1 ≤ wd.length ∧ wd.length ≤ c.maxPayload := decide_eq_true_iff

theorem readLenOk_iff (c : Config) (n : Nat) : readLenOk c n = true ↔ 1 ≤ n ∧ n ≤ c.maxPayload := decide_eq_true_iff

/-! ### What a legal instance gives (R5) -/

section
variable {c : Config}

theorem legal_debounceN (h : c.legal = true) : 1 ≤ c.debounceN.toNat := by
  simp only [Config.legal, Bool.and_eq_true, decide_eq_true_eq] at h
  tauto

theorem legal_statusPollMax (h : c.legal = true) : 1 ≤ c.statusPollMax := by
  simp only [Config.legal, Bool.and_eq_true, decide_eq_true_eq] at h
  tauto

theorem legal_expAddr (h : c.legal = true) : targetOk c.expAddr = true := by
  simp only [Config.legal, Bool.and_eq_true, decide_eq_true_eq] at h
  tauto

theorem legal_reportSize (h : c.legal = true) : 8 ≤ c.reportSize := by
  simp only [Config.legal, Bool.and_eq_true, decide_eq_true_eq] at h
  tauto

theorem legal_hdrSize (h : c.legal = true) : c.hdrSize = 4 := by
  simp only [Config.legal, Bool.and_eq_true, decide_eq_true_eq] at h
  tauto

/-- The payload fills the report behind the four header bytes (R5, R60). -/
theorem legal_maxPayload (h : c.legal = true) : c.maxPayload + 4 = c.reportSize := by
  have h1 := legal_hdrSize h
  have h2 := legal_reportSize h
  simp only [Config.maxPayload, h1]; omega

/-- The six command codes are distinct (R5). -/
theorem legal_cmd (h : c.legal = true) :
    [c.cmdSetSpeed, c.cmdI2cWrite, c.cmdI2cRead, c.cmdI2cWriteRead, c.cmdGetStatus, c.cmdGetData].Nodup := by
  simp only [Config.legal, Bool.and_eq_true, decide_eq_true_eq] at h
  tauto

/-- The three result codes are distinct (R5). -/
theorem legal_res (h : c.legal = true) : [c.resOk, c.resBusy, c.resNoData].Nodup := by
  simp only [Config.legal, Bool.and_eq_true, decide_eq_true_eq] at h
  tauto

/-- The four transfer states are distinct (R5). -/
theorem legal_st (h : c.legal = true) : [c.stInProgress, c.stComplete, c.stErrNack, c.stErrTimeout].Nodup := by
  simp only [Config.legal, Bool.and_eq_true, decide_eq_true_eq] at h
  tauto

/-- Legality depends on `NOTIFY_EN` in nothing, on `DEBOUNCE_N` only in that it is not 0. -/
theorem legal_sampled (h : c.legal = true) {n : BitVec 8} (hn : n ≠ 0#8) (b : Bool) :
    Config.legal { c with debounceN := n, notifyEn := b } = true := by
  have h1 : 1 ≤ n.toNat := by
    rcases Nat.eq_zero_or_pos n.toNat with h0 | h0
    · exact absurd (BitVec.eq_of_toNat_eq (by simpa using h0)) hn
    · exact h0
  simp only [Config.legal, Bool.and_eq_true, decide_eq_true_eq] at h ⊢
  tauto

end

end Sys2Proof
end

