-- ==== Sys2Proof/Laws/State.lean ====
section
/-! SUPPORT. One lemma per field for each update of the state, so that no later proof unfolds one: what the update writes, and
that it leaves every other field. -/

namespace Sys2Proof.Machine

variable (s : State)

/-! ### `sampleInputs` -/

@[simp] theorem sampleInputs_cfg : (sampleInputs s).cfg = s.cfg := rfl
@[simp] theorem sampleInputs_seq : (sampleInputs s).seq = s.seq := rfl
@[simp] theorem sampleInputs_brg : (sampleInputs s).brg = s.brg := rfl
@[simp] theorem sampleInputs_port : (sampleInputs s).port = s.port := rfl
@[simp] theorem sampleInputs_slt : (sampleInputs s).slt = s.slt := rfl
@[simp] theorem sampleInputs_scratch : (sampleInputs s).scratch = s.scratch := rfl
@[simp] theorem sampleInputs_out : (sampleInputs s).out = s.out := rfl
@[simp] theorem sampleInputs_hid : (sampleInputs s).hid = s.hid := rfl
@[simp] theorem sampleInputs_world : (sampleInputs s).world = s.world.sample := rfl

/-! ### `takeXchg` -/

@[simp] theorem takeXchg_cfg : (takeXchg s).cfg = s.cfg := rfl
@[simp] theorem takeXchg_seq : (takeXchg s).seq = s.seq := rfl
@[simp] theorem takeXchg_brg : (takeXchg s).brg = s.brg := rfl
@[simp] theorem takeXchg_port : (takeXchg s).port = s.port := rfl
@[simp] theorem takeXchg_slt : (takeXchg s).slt = s.slt := rfl
@[simp] theorem takeXchg_scratch : (takeXchg s).scratch = s.scratch := rfl
@[simp] theorem takeXchg_out : (takeXchg s).out = s.out := rfl
@[simp] theorem takeXchg_hid : (takeXchg s).hid = s.hid := rfl
@[simp] theorem takeXchg_world : (takeXchg s).world = s.world.afterXchg := rfl

/-! ### `setSst` -/

@[simp] theorem setSst_cfg (x : SeqState) : (setSst x s).cfg = s.cfg := rfl
@[simp] theorem setSst_seq (x : SeqState) : (setSst x s).seq = { s.seq with sst := x } := rfl
@[simp] theorem setSst_brg (x : SeqState) : (setSst x s).brg = s.brg := rfl
@[simp] theorem setSst_port (x : SeqState) : (setSst x s).port = s.port := rfl
@[simp] theorem setSst_slt (x : SeqState) : (setSst x s).slt = s.slt := rfl
@[simp] theorem setSst_scratch (x : SeqState) : (setSst x s).scratch = s.scratch := rfl
@[simp] theorem setSst_out (x : SeqState) : (setSst x s).out = s.out := rfl
@[simp] theorem setSst_hid (x : SeqState) : (setSst x s).hid = s.hid := rfl
@[simp] theorem setSst_world (x : SeqState) : (setSst x s).world = s.world := rfl

/-! ### `setRc` -/

@[simp] theorem setRc_cfg (b : Bool) : (setRc b s).cfg = s.cfg := rfl
@[simp] theorem setRc_seq (b : Bool) : (setRc b s).seq = { s.seq with rc := b } := rfl
@[simp] theorem setRc_brg (b : Bool) : (setRc b s).brg = s.brg := rfl
@[simp] theorem setRc_port (b : Bool) : (setRc b s).port = s.port := rfl
@[simp] theorem setRc_slt (b : Bool) : (setRc b s).slt = s.slt := rfl
@[simp] theorem setRc_scratch (b : Bool) : (setRc b s).scratch = s.scratch := rfl
@[simp] theorem setRc_out (b : Bool) : (setRc b s).out = s.out := rfl
@[simp] theorem setRc_hid (b : Bool) : (setRc b s).hid = s.hid := rfl
@[simp] theorem setRc_world (b : Bool) : (setRc b s).world = s.world := rfl

/-! ### `setBrg` -/

@[simp] theorem setBrg_cfg (b : BridgeRegs) : (setBrg b s).cfg = s.cfg := rfl
@[simp] theorem setBrg_seq (b : BridgeRegs) : (setBrg b s).seq = s.seq := rfl
@[simp] theorem setBrg_brg (b : BridgeRegs) : (setBrg b s).brg = b := rfl
@[simp] theorem setBrg_port (b : BridgeRegs) : (setBrg b s).port = s.port := rfl
@[simp] theorem setBrg_slt (b : BridgeRegs) : (setBrg b s).slt = s.slt := rfl
@[simp] theorem setBrg_scratch (b : BridgeRegs) : (setBrg b s).scratch = s.scratch := rfl
@[simp] theorem setBrg_out (b : BridgeRegs) : (setBrg b s).out = s.out := rfl
@[simp] theorem setBrg_hid (b : BridgeRegs) : (setBrg b s).hid = s.hid := rfl
@[simp] theorem setBrg_world (b : BridgeRegs) : (setBrg b s).world = s.world := rfl

/-! ### `setPort` -/

@[simp] theorem setPort_cfg (v : BitVec 16) : (setPort v s).cfg = s.cfg := rfl
@[simp] theorem setPort_seq (v : BitVec 16) : (setPort v s).seq = s.seq := rfl
@[simp] theorem setPort_brg (v : BitVec 16) : (setPort v s).brg = s.brg := rfl
@[simp] theorem setPort_port (v : BitVec 16) : (setPort v s).port = v := rfl
@[simp] theorem setPort_slt (v : BitVec 16) : (setPort v s).slt = s.slt := rfl
@[simp] theorem setPort_scratch (v : BitVec 16) : (setPort v s).scratch = s.scratch := rfl
@[simp] theorem setPort_out (v : BitVec 16) : (setPort v s).out = s.out := rfl
@[simp] theorem setPort_hid (v : BitVec 16) : (setPort v s).hid = s.hid := rfl
@[simp] theorem setPort_world (v : BitVec 16) : (setPort v s).world = s.world := rfl

/-! ### `markFailed` -/

@[simp] theorem markFailed_cfg (e : ErrClass) (o : BusOutcome) : (markFailed e o s).cfg = s.cfg := rfl
@[simp] theorem markFailed_seq (e : ErrClass) (o : BusOutcome) : (markFailed e o s).seq = { s.seq with err := ⟨e, o⟩ } := rfl
@[simp] theorem markFailed_brg (e : ErrClass) (o : BusOutcome) : (markFailed e o s).brg = s.brg := rfl
@[simp] theorem markFailed_port (e : ErrClass) (o : BusOutcome) : (markFailed e o s).port = s.port := rfl
@[simp] theorem markFailed_slt (e : ErrClass) (o : BusOutcome) : (markFailed e o s).slt = { s.slt with snap := { s.slt.snap with stale := true } } := rfl
@[simp] theorem markFailed_scratch (e : ErrClass) (o : BusOutcome) : (markFailed e o s).scratch = s.scratch := rfl
@[simp] theorem markFailed_out (e : ErrClass) (o : BusOutcome) : (markFailed e o s).out = s.out := rfl
@[simp] theorem markFailed_hid (e : ErrClass) (o : BusOutcome) : (markFailed e o s).hid = s.hid := rfl
@[simp] theorem markFailed_world (e : ErrClass) (o : BusOutcome) : (markFailed e o s).world = s.world := rfl

/-! ### `clearError` -/

@[simp] theorem clearError_cfg : (clearError s).cfg = s.cfg := rfl
@[simp] theorem clearError_seq : (clearError s).seq = { s.seq with err := ⟨.noErr, .ok⟩ } := rfl
@[simp] theorem clearError_brg : (clearError s).brg = s.brg := rfl
@[simp] theorem clearError_port : (clearError s).port = s.port := rfl
@[simp] theorem clearError_slt : (clearError s).slt = s.slt := rfl
@[simp] theorem clearError_scratch : (clearError s).scratch = s.scratch := rfl
@[simp] theorem clearError_out : (clearError s).out = s.out := rfl
@[simp] theorem clearError_hid : (clearError s).hid = s.hid := rfl
@[simp] theorem clearError_world : (clearError s).world = s.world := rfl

/-! ### `answerQuery` -/

@[simp] theorem answerQuery_cfg : (answerQuery s).cfg = s.cfg := rfl
@[simp] theorem answerQuery_seq : (answerQuery s).seq = s.seq := rfl
@[simp] theorem answerQuery_brg : (answerQuery s).brg = s.brg := rfl
@[simp] theorem answerQuery_port : (answerQuery s).port = s.port := rfl
@[simp] theorem answerQuery_slt : (answerQuery s).slt = s.slt := rfl
@[simp] theorem answerQuery_scratch : (answerQuery s).scratch = s.scratch := rfl
@[simp] theorem answerQuery_out : (answerQuery s).out = s.out := rfl
@[simp] theorem answerQuery_hid : (answerQuery s).hid = s.hid := rfl
@[simp] theorem answerQuery_world : (answerQuery s).world = { s.world with replies := s.world.replies ++ [queryReply s] } := rfl

/-! ### `setDecoded` -/

@[simp] theorem setDecoded_cfg (d : SlotState) : (setDecoded d s).cfg = s.cfg := rfl
@[simp] theorem setDecoded_seq (d : SlotState) : (setDecoded d s).seq = s.seq := rfl
@[simp] theorem setDecoded_brg (d : SlotState) : (setDecoded d s).brg = s.brg := rfl
@[simp] theorem setDecoded_port (d : SlotState) : (setDecoded d s).port = s.port := rfl
@[simp] theorem setDecoded_slt (d : SlotState) : (setDecoded d s).slt = s.slt := rfl
@[simp] theorem setDecoded_scratch (d : SlotState) : (setDecoded d s).scratch = { s.scratch with dec := d } := rfl
@[simp] theorem setDecoded_out (d : SlotState) : (setDecoded d s).out = s.out := rfl
@[simp] theorem setDecoded_hid (d : SlotState) : (setDecoded d s).hid = s.hid := rfl
@[simp] theorem setDecoded_world (d : SlotState) : (setDecoded d s).world = s.world := rfl

/-! ### `publishSnapshot` -/

@[simp] theorem publishSnapshot_cfg (t : Time) : (publishSnapshot t s).cfg = s.cfg := rfl
@[simp] theorem publishSnapshot_seq (t : Time) : (publishSnapshot t s).seq = s.seq := rfl
@[simp] theorem publishSnapshot_brg (t : Time) : (publishSnapshot t s).brg = s.brg := rfl
@[simp] theorem publishSnapshot_port (t : Time) : (publishSnapshot t s).port = s.port := rfl
@[simp] theorem publishSnapshot_slt (t : Time) : (publishSnapshot t s).slt = { s.slt with snap := { st := s.slt.commit, ts := t, stale := false } } := rfl
@[simp] theorem publishSnapshot_scratch (t : Time) : (publishSnapshot t s).scratch = s.scratch := rfl
@[simp] theorem publishSnapshot_out (t : Time) : (publishSnapshot t s).out = s.out := rfl
@[simp] theorem publishSnapshot_hid (t : Time) : (publishSnapshot t s).hid = s.hid := rfl
@[simp] theorem publishSnapshot_world (t : Time) : (publishSnapshot t s).world = s.world := rfl

/-! ### `clearEvents` -/

@[simp] theorem clearEvents_cfg : (clearEvents s).cfg = s.cfg := rfl
@[simp] theorem clearEvents_seq : (clearEvents s).seq = s.seq := rfl
@[simp] theorem clearEvents_brg : (clearEvents s).brg = s.brg := rfl
@[simp] theorem clearEvents_port : (clearEvents s).port = s.port := rfl
@[simp] theorem clearEvents_slt : (clearEvents s).slt = s.slt := rfl
@[simp] theorem clearEvents_scratch : (clearEvents s).scratch = { s.scratch with ev := Six.fill none } := rfl
@[simp] theorem clearEvents_out : (clearEvents s).out = s.out := rfl
@[simp] theorem clearEvents_hid : (clearEvents s).hid = s.hid := rfl
@[simp] theorem clearEvents_world : (clearEvents s).world = s.world := rfl

/-! ### `debounceSlot` -/

@[simp] theorem debounceSlot_cfg (i : Fin 6) (d : SlotState) : (debounceSlot i d s).cfg = s.cfg := rfl
@[simp] theorem debounceSlot_seq (i : Fin 6) (d : SlotState) : (debounceSlot i d s).seq = s.seq := rfl
@[simp] theorem debounceSlot_brg (i : Fin 6) (d : SlotState) : (debounceSlot i d s).brg = s.brg := rfl
@[simp] theorem debounceSlot_port (i : Fin 6) (d : SlotState) : (debounceSlot i d s).port = s.port := rfl
@[simp] theorem debounceSlot_out (i : Fin 6) (d : SlotState) : (debounceSlot i d s).out = s.out := rfl
@[simp] theorem debounceSlot_hid (i : Fin 6) (d : SlotState) : (debounceSlot i d s).hid = s.hid := rfl
@[simp] theorem debounceSlot_world (i : Fin 6) (d : SlotState) : (debounceSlot i d s).world = s.world := rfl

/-! ### `hidClose` -/

@[simp] theorem hidClose_cfg : (hidClose s).cfg = s.cfg := by unfold hidClose; split <;> rfl
@[simp] theorem hidClose_seq : (hidClose s).seq = s.seq := by unfold hidClose; split <;> rfl
@[simp] theorem hidClose_port : (hidClose s).port = s.port := by unfold hidClose; split <;> rfl
@[simp] theorem hidClose_slt : (hidClose s).slt = s.slt := by unfold hidClose; split <;> rfl
@[simp] theorem hidClose_scratch : (hidClose s).scratch = s.scratch := by unfold hidClose; split <;> rfl
@[simp] theorem hidClose_out : (hidClose s).out = s.out := by unfold hidClose; split <;> rfl

/-! ### `die` -/

@[simp] theorem die_cfg : (die s).cfg = s.cfg := by simp [die]
@[simp] theorem die_seq : (die s).seq = { s.seq with sst := .sDead } := by simp [die]
@[simp] theorem die_brg : (die s).brg = (hidClose s).brg := by simp [die]
@[simp] theorem die_port : (die s).port = s.port := by simp [die]
@[simp] theorem die_slt : (die s).slt = s.slt := by simp [die]
@[simp] theorem die_scratch : (die s).scratch = s.scratch := by simp [die]
@[simp] theorem die_out : (die s).out = s.out := by simp [die]
@[simp] theorem die_hid : (die s).hid = (hidClose s).hid := by simp [die]
@[simp] theorem die_world : (die s).world = (hidClose s).world := by simp [die]

/-! ### `fatalIO` -/

@[simp] theorem fatalIO_cfg : (fatalIO s).cfg = s.cfg := by unfold fatalIO; split <;> simp
@[simp] theorem fatalIO_brg : (fatalIO s).brg = (hidClose s).brg := by unfold fatalIO; split <;> simp
@[simp] theorem fatalIO_port : (fatalIO s).port = s.port := by unfold fatalIO; split <;> simp
@[simp] theorem fatalIO_slt : (fatalIO s).slt = s.slt := by unfold fatalIO; split <;> simp
@[simp] theorem fatalIO_scratch : (fatalIO s).scratch = s.scratch := by unfold fatalIO; split <;> simp
@[simp] theorem fatalIO_out : (fatalIO s).out = s.out := by unfold fatalIO; split <;> simp
@[simp] theorem fatalIO_hid : (fatalIO s).hid = (hidClose s).hid := by unfold fatalIO; split <;> simp
@[simp] theorem fatalIO_world : (fatalIO s).world = (hidClose s).world := by unfold fatalIO; split <;> simp

/-! ### `notifyGate` -/

@[simp] theorem notifyGate_cfg (e : TransitionEvent) : (notifyGate e s).cfg = s.cfg := by unfold notifyGate; split <;> rfl
@[simp] theorem notifyGate_seq (e : TransitionEvent) : (notifyGate e s).seq = s.seq := by unfold notifyGate; split <;> rfl
@[simp] theorem notifyGate_brg (e : TransitionEvent) : (notifyGate e s).brg = s.brg := by unfold notifyGate; split <;> rfl
@[simp] theorem notifyGate_port (e : TransitionEvent) : (notifyGate e s).port = s.port := by unfold notifyGate; split <;> rfl
@[simp] theorem notifyGate_slt (e : TransitionEvent) : (notifyGate e s).slt = s.slt := by unfold notifyGate; split <;> rfl
@[simp] theorem notifyGate_scratch (e : TransitionEvent) : (notifyGate e s).scratch = s.scratch := by unfold notifyGate; split <;> rfl
@[simp] theorem notifyGate_hid (e : TransitionEvent) : (notifyGate e s).hid = s.hid := by unfold notifyGate; split <;> rfl
@[simp] theorem notifyGate_world (e : TransitionEvent) : (notifyGate e s).world = s.world := by unfold notifyGate; split <;> rfl

/-! ### `dispatchSlot` -/

@[simp] theorem dispatchSlot_cfg (t : Time) (i : Fin 6) : (dispatchSlot t s i).cfg = s.cfg := by unfold dispatchSlot; split <;> simp
@[simp] theorem dispatchSlot_seq (t : Time) (i : Fin 6) : (dispatchSlot t s i).seq = s.seq := by unfold dispatchSlot; split <;> simp
@[simp] theorem dispatchSlot_brg (t : Time) (i : Fin 6) : (dispatchSlot t s i).brg = s.brg := by unfold dispatchSlot; split <;> simp
@[simp] theorem dispatchSlot_port (t : Time) (i : Fin 6) : (dispatchSlot t s i).port = s.port := by unfold dispatchSlot; split <;> simp
@[simp] theorem dispatchSlot_slt (t : Time) (i : Fin 6) : (dispatchSlot t s i).slt = s.slt := by unfold dispatchSlot; split <;> simp
@[simp] theorem dispatchSlot_scratch (t : Time) (i : Fin 6) : (dispatchSlot t s i).scratch = s.scratch := by unfold dispatchSlot; split <;> simp
@[simp] theorem dispatchSlot_hid (t : Time) (i : Fin 6) : (dispatchSlot t s i).hid = s.hid := by unfold dispatchSlot; split <;> simp
@[simp] theorem dispatchSlot_world (t : Time) (i : Fin 6) : (dispatchSlot t s i).world = s.world := by unfold dispatchSlot; split <;> simp

/-! ### `bridgeExchange` -/

@[simp] theorem bridgeExchange_cfg (a : XchgAnswer) : (bridgeExchange a s).cfg = s.cfg := by unfold bridgeExchange; split <;> rfl
@[simp] theorem bridgeExchange_seq (a : XchgAnswer) : (bridgeExchange a s).seq = s.seq := by unfold bridgeExchange; split <;> rfl
@[simp] theorem bridgeExchange_port (a : XchgAnswer) : (bridgeExchange a s).port = s.port := by unfold bridgeExchange; split <;> rfl
@[simp] theorem bridgeExchange_slt (a : XchgAnswer) : (bridgeExchange a s).slt = s.slt := by unfold bridgeExchange; split <;> rfl
@[simp] theorem bridgeExchange_scratch (a : XchgAnswer) : (bridgeExchange a s).scratch = s.scratch := by unfold bridgeExchange; split <;> rfl
@[simp] theorem bridgeExchange_out (a : XchgAnswer) : (bridgeExchange a s).out = s.out := by unfold bridgeExchange; split <;> rfl
@[simp] theorem bridgeExchange_world (a : XchgAnswer) : (bridgeExchange a s).world = s.world := by unfold bridgeExchange; split <;> rfl

/-! ### `bridgeStep` -/

@[simp] theorem bridgeStep_cfg : (bridgeStep s).cfg = s.cfg := by simp [bridgeStep]
@[simp] theorem bridgeStep_seq : (bridgeStep s).seq = s.seq := by simp [bridgeStep]
@[simp] theorem bridgeStep_port : (bridgeStep s).port = s.port := by simp [bridgeStep]
@[simp] theorem bridgeStep_slt : (bridgeStep s).slt = s.slt := by simp [bridgeStep]
@[simp] theorem bridgeStep_scratch : (bridgeStep s).scratch = s.scratch := by simp [bridgeStep]
@[simp] theorem bridgeStep_out : (bridgeStep s).out = s.out := by simp [bridgeStep]
@[simp] theorem bridgeStep_world : (bridgeStep s).world = s.world.afterXchg := by simp [bridgeStep]

end Sys2Proof.Machine
end

