-- ==== Sys2Proof/Laws/Ops.lean ====
section
/-! SUPPORT. What each shared operation of Machine/Ops.lean and Machine/Operands.lean can do, said once. -/

namespace Sys2Proof.Machine

/-! ### Closing the handle -/

@[simp] theorem hidClose_bst (s : State) : (hidClose s).brg.bst = .bClosed := by
  unfold hidClose; split
  · assumption
  · rfl

theorem hidClose_of_closed {s : State} (h : s.brg.bst = .bClosed) : hidClose s = s := by
  simp [hidClose, h]

theorem hidClose_of_open {s : State} (h : s.brg.bst ≠ .bClosed) :
    hidClose s = { s with
      brg := { s.brg with bst := .bClosed }, hid := s.hid ++ [.closed]
      world := { s.world with handle := false } } := by
  simp [hidClose, h]

/-- `hidClose` leaves every register of `BRG` but `bst`. -/
theorem hidClose_brg (s : State) : (hidClose s).brg = { s.brg with bst := .bClosed } := by
  unfold hidClose; split
  · next h => cases hb : s.brg with | mk => simp_all
  · rfl

theorem hidClose_hid (s : State) :
    (hidClose s).hid = s.hid ++ (if s.brg.bst = .bClosed then [] else [.closed]) := by
  unfold hidClose; split <;> simp

/-- After a close no handle is held, provided one was held only while `bst` was open. -/
theorem hidClose_handle {s : State} (h : s.world.handle = true ↔ s.brg.bst ≠ .bClosed) :
    (hidClose s).world.handle = false := by
  unfold hidClose; split
  · next hb => simpa [hb] using h
  · rfl

/-! ### Raising an error -/

/-- Everything `raise` can do: it records class and detail and marks the snapshot stale, then waits for the next poll, dies,
or reconnects, by class. -/
theorem raise_cases (e : ErrClass) (o : BusOutcome) (s : State) :
    (e = .noErr ∧ raise e o s = markFailed e o s) ∨
    ((e = .busTimeout ∨ e = .busError) ∧ raise e o s = setSst .sIdle (markFailed e o s)) ∨
    ((e = .deviceNotFound ∨ e = .initError ∨ e = .invalidReportSize ∨ e = .invalidArg) ∧
      raise e o s = die (markFailed e o s)) ∨
    (e = .ioError ∧ raise e o s = fatalIO (markFailed e o s)) := by
  cases e <;> simp [raise, errorExit]

theorem errorExit_slt (e : ErrClass) (s : State) : (errorExit e s).slt = s.slt := by
  cases e <;> simp [errorExit]
theorem errorExit_cfg (e : ErrClass) (s : State) : (errorExit e s).cfg = s.cfg := by
  cases e <;> simp [errorExit]
theorem errorExit_port (e : ErrClass) (s : State) : (errorExit e s).port = s.port := by
  cases e <;> simp [errorExit]
theorem errorExit_out (e : ErrClass) (s : State) : (errorExit e s).out = s.out := by
  cases e <;> simp [errorExit]
theorem errorExit_scratch (e : ErrClass) (s : State) : (errorExit e s).scratch = s.scratch := by
  cases e <;> simp [errorExit]
theorem fatalIO_err (s : State) : (fatalIO s).seq.err = s.seq.err := by
  unfold fatalIO; split <;> simp
theorem errorExit_err (e : ErrClass) (s : State) : (errorExit e s).seq.err = s.seq.err := by
  cases e <;> simp [errorExit, fatalIO_err]

@[simp] theorem raise_cfg (e : ErrClass) (o : BusOutcome) (s : State) : (raise e o s).cfg = s.cfg := by
  simp [raise, errorExit_cfg]
@[simp] theorem raise_port (e : ErrClass) (o : BusOutcome) (s : State) : (raise e o s).port = s.port := by
  simp [raise, errorExit_port]
@[simp] theorem raise_out (e : ErrClass) (o : BusOutcome) (s : State) : (raise e o s).out = s.out := by
  simp [raise, errorExit_out]
@[simp] theorem raise_scratch (e : ErrClass) (o : BusOutcome) (s : State) :
    (raise e o s).scratch = s.scratch := by
  simp [raise, errorExit_scratch]
@[simp] theorem raise_slt (e : ErrClass) (o : BusOutcome) (s : State) :
    (raise e o s).slt = { s.slt with snap := { s.slt.snap with stale := true } } := by
  simp [raise, errorExit_slt]
@[simp] theorem raise_err (e : ErrClass) (o : BusOutcome) (s : State) :
    (raise e o s).seq.err = ⟨e, o⟩ := by
  simp [raise, errorExit_err]

/-! ### Classification -/

/-- A report whose first byte is not the expected code is no answer (R71). -/
theorem classify_of_echo_ne (c : Config) {echo code : Byte} (rest : List Byte) (h : echo ≠ code) :
    classify c (echo :: rest) code = .noAnswer := by
  unfold classify
  split
  · rfl
  · split
    · next heq => cases heq; simp [h]
    · rfl

/-- A missing report, or a block of the wrong size, is no answer (R71, 93 U15). -/
theorem classify_of_length_ne {c : Config} {r : Report} (code : Byte) (h : r.length ≠ c.reportSize) :
    classify c r code = .noAnswer := by
  simp [classify, h]

/-- The code of an operation is one of the four that start a transfer, and neither of the other two (R72). -/
theorem isCommandCode_cmdCode {c : Config} (hc : c.legal = true) (op : OpCode) :
    cmdCode c op ≠ c.cmdGetStatus ∧ cmdCode c op ≠ c.cmdGetData ∧
    (cmdCode c op = c.cmdSetSpeed ∨ cmdCode c op = c.cmdI2cWrite ∨ cmdCode c op = c.cmdI2cRead
      ∨ cmdCode c op = c.cmdI2cWriteRead) := by
  have h := legal_cmd hc
  simp only [List.nodup_cons, List.mem_cons, List.not_mem_nil, not_or, or_false] at h
  cases op <;> simp only [cmdCode] <;> tauto

/-- Classification against a command code looks at the result byte alone (R68, R71). -/
theorem classify_command {c : Config} (hc : c.legal = true) (op : OpCode) (result : Byte) {rest : List Byte}
    (h : rest.length + 2 = c.reportSize) :
    classify c (cmdCode c op :: result :: rest) (cmdCode c op)
      = if result = c.resOk then .accepted else if result = c.resBusy then .busy else .noAnswer := by
  obtain ⟨h1, h2, h3⟩ := isCommandCode_cmdCode hc op
  have h4 := legal_reportSize hc
  match rest, h with
  | [], h => simp at h; omega
  | [_], h => simp at h; omega
  | a :: b :: tl, h => simp_all [classify]

/-- Classification of a status response (R69, R71). -/
theorem classify_status {c : Config} (hc : c.legal = true) (result state : Byte) {rest : List Byte}
    (h : rest.length + 3 = c.reportSize) :
    classify c (c.cmdGetStatus :: result :: state :: rest) c.cmdGetStatus
      = match transferState c state with
        | some st => if result = c.resOk then .status st else .noAnswer
        | none => .noAnswer := by
  have h4 := legal_reportSize hc
  match rest, h with
  | [], h => simp at h; omega
  | a :: tl, h => cases hs : transferState c state <;> simp_all [classify]

/-- Classification of a data response (R70, R71). -/
theorem classify_data {c : Config} (hc : c.legal = true) (result b2 n : Byte) {bytes : List Byte}
    (h : bytes.length + 4 = c.reportSize) :
    classify c (c.cmdGetData :: result :: b2 :: n :: bytes) c.cmdGetData
      = if result = c.resOk then .data n bytes else if result = c.resNoData then .noData else .noAnswer := by
  have h1 := legal_cmd hc
  simp only [List.nodup_cons, List.mem_cons, List.not_mem_nil, not_or, or_false] at h1
  have h2 : c.cmdGetData ≠ c.cmdGetStatus := by tauto
  simp [classify, h, h2]

/-- A data class comes from a report of full size, so it carries the bytes behind the header (R61, R71). -/
theorem classify_data_length {c : Config} {r : Report} {code n : Byte} {bytes : List Byte}
    (h : classify c r code = .data n bytes) : bytes.length + 4 = c.reportSize := by
  unfold classify at h
  split at h
  · cases h
  · next hl =>
    split at h
    · split at h
      · cases h
      · split at h
        · split at h
          · split at h <;> cases h
          · cases h
        · split at h
          · split at h
            · cases h; simpa using hl
            · split at h <;> cases h
          · split at h
            · split at h
              · cases h
              · split at h <;> cases h
            · cases h
    · cases h

theorem xchgResult_data_length {c : Config} {a : XchgAnswer} {code n : Byte} {bytes : List Byte}
    (h : xchgResult c a code = .data n bytes) : bytes.length + 4 = c.reportSize := by
  unfold xchgResult at h
  split at h
  · cases h
  · cases h
  · split at h
    · cases h
    · exact classify_data_length h

end Sys2Proof.Machine
end

