-- ==== Sys2Proof/Laws/Bridge.lean ====
section
/-! SUPPORT. What the bridge controller can do in one exchange and in a whole operation, said once. -/

namespace Sys2Proof.Machine

/-! ### The report that is next -/

theorem nextReport_eq_some_iff (c : Config) (b : BridgeRegs) (tx : Report) :
    nextReport c b = some tx ↔
      (b.bst = .bCmd ∧ tx = inFlightReport c b) ∨
      (b.bst = .bStat ∧ b.k < c.statusPollMax ∧ tx = statusReport c) ∨
      (b.bst = .bData ∧ tx = dataReport c) := by
  cases h : b.bst <;> simp [nextReport, h, eq_comm]

theorem exchangeNext_iff (s : State) :
    exchangeNext s = true ↔ s.brg.bst = .bCmd ∨ (s.brg.bst = .bStat ∧ s.brg.k < s.cfg.statusPollMax)
      ∨ s.brg.bst = .bData := by
  cases h : s.brg.bst <;> simp [exchangeNext, nextReport, h]

/-- Where a report is next, one exchange changes `BRG` and `HID` alone (R96). -/
theorem bridgeExchange_of_next {a : XchgAnswer} {s : State} {tx : Report} (h : nextReport s.cfg s.brg = some tx) :
    bridgeExchange a s
      = { s with brg := bridgeReact s.cfg a s.brg, hid := s.hid ++ xchgCalls s.cfg.rxTimeout tx a } := by
  simp [bridgeExchange, h]

theorem bridgeStep_of_next {s : State} {tx : Report} (h : nextReport s.cfg s.brg = some tx) :
    bridgeStep s = exchanged s tx s.world.xchgAnswer (bridgeReact s.cfg s.world.xchgAnswer s.brg) := by
  simp [bridgeStep, bridgeExchange, takeXchg, exchanged, h]

/-! ### Updates of the registers -/

section
variable (c : Config) (b : BridgeRegs) (q : Request) (o : BusOutcome)

@[simp] theorem finish_bst : (finish o b).bst = .bIdle := rfl
@[simp] theorem finish_res : (finish o b).res = o := rfl
@[simp] theorem finish_rd : (finish o b).rd = b.rd := rfl
@[simp] theorem finish_k : (finish o b).k = b.k := rfl
@[simp] theorem finish_tries : (finish o b).tries = b.tries := rfl
@[simp] theorem startOp_bst : (startOp c q b).bst = .bCmd := rfl
@[simp] theorem startOp_op : (startOp c q b).op = q.op := rfl
@[simp] theorem startOp_tries : (startOp c q b).tries = 0#1 := rfl
@[simp] theorem startOp_k : (startOp c q b).k = b.k := rfl
@[simp] theorem startOp_res : (startOp c q b).res = b.res := rfl
@[simp] theorem startOp_rd : (startOp c q b).rd = b.rd := rfl
@[simp] theorem startOp_wl : (startOp c q b).wl = lenReg c q.w.length := rfl
@[simp] theorem startOp_rl : (startOp c q b).rl = lenReg c q.r := rfl
@[simp] theorem startOp_wd : (startOp c q b).wd = overwrite q.w b.wd := rfl
@[simp] theorem countPoll_bst : (countPoll c b).bst = b.bst := rfl
@[simp] theorem countPoll_op : (countPoll c b).op = b.op := rfl
@[simp] theorem countPoll_ta : (countPoll c b).ta = b.ta := rfl
@[simp] theorem countPoll_wl : (countPoll c b).wl = b.wl := rfl
@[simp] theorem countPoll_wd : (countPoll c b).wd = b.wd := rfl
@[simp] theorem countPoll_rl : (countPoll c b).rl = b.rl := rfl
@[simp] theorem countPoll_rd : (countPoll c b).rd = b.rd := rfl
@[simp] theorem countPoll_res : (countPoll c b).res = b.res := rfl
@[simp] theorem countPoll_tries : (countPoll c b).tries = b.tries := rfl

end

/-- A length up to `MAX_WR` = `MAX_RD` is kept by the length registers (R15). -/
theorem lenReg_of_le {c : Config} {n : Nat} (h : n ≤ c.maxPayload) : lenReg c n = n :=
  Nat.mod_eq_of_lt (lt_two_pow_bitWidth h)

/-- Below `STATUS_POLL_MAX` the increment of `k` does not wrap in its width (R17, R102). -/
theorem countPoll_of_lt {c : Config} {b : BridgeRegs} (h : b.k < c.statusPollMax) :
    countPoll c b = { b with k := b.k + 1 } := by
  have h1 : (b.k + 1) % 2 ^ c.kWidth = b.k + 1 := Nat.mod_eq_of_lt (lt_two_pow_bitWidth h)
  simp [countPoll, h1]

/-- `k` stays in its width (R17). -/
theorem countPoll_k_lt (c : Config) (b : BridgeRegs) : (countPoll c b).k < 2 ^ c.kWidth :=
  Nat.mod_lt _ (Nat.two_pow_pos _)

/-! ### The reactions -/

/-- Everything a failed attempt can do (R109 to R111). -/
theorem attemptFail_cases (c : Config) (o : BusOutcome) (b : BridgeRegs) :
    (retryable c.retryOn o = true ∧ b.tries = 0#1 ∧
      attemptFail c o b = { b with tries := 1#1, bst := .bCmd }) ∨
    ((retryable c.retryOn o = false ∨ b.tries = 1#1) ∧ attemptFail c o b = finish o b) := by
  unfold attemptFail
  have ht : b.tries = 0#1 ∨ b.tries = 1#1 := by
    have := b.tries.isLt
    rcases (by omega : b.tries.toNat = 0 ∨ b.tries.toNat = 1) with h | h
    · exact .inl (BitVec.eq_of_toNat_eq (by simpa using h))
    · exact .inr (BitVec.eq_of_toNat_eq (by simpa using h))
  rcases ht with h | h <;> cases hr : retryable c.retryOn o <;> simp [h, Config.retryMax]

/-- What any reaction of the FSM leaves: the latch, and the reply unless an operation ends OK. -/
structure SameLatch (b b' : BridgeRegs) : Prop where
  op : b'.op = b.op
  ta : b'.ta = b.ta
  wl : b'.wl = b.wl
  wd : b'.wd = b.wd
  rl : b'.rl = b.rl

theorem SameLatch.trans {a b c : BridgeRegs} (h : SameLatch a b) (g : SameLatch b c) : SameLatch a c :=
  ⟨g.op.trans h.op, g.ta.trans h.ta, g.wl.trans h.wl, g.wd.trans h.wd, g.rl.trans h.rl⟩

theorem SameLatch.request {b b' : BridgeRegs} (h : SameLatch b b') : latchedRequest b' = latchedRequest b := by
  simp [latchedRequest, h.op, h.ta, h.wl, h.wd, h.rl]

theorem attemptFail_latch (c : Config) (o : BusOutcome) (b : BridgeRegs) : SameLatch b (attemptFail c o b) := by
  rcases attemptFail_cases c o b with ⟨-, -, h⟩ | ⟨-, h⟩ <;> (rw [h]; constructor <;> rfl)

theorem attemptFail_rd (c : Config) (o : BusOutcome) (b : BridgeRegs) : (attemptFail c o b).rd = b.rd := by
  rcases attemptFail_cases c o b with ⟨-, -, h⟩ | ⟨-, h⟩ <;> simp [h, finish]

theorem attemptFail_k (c : Config) (o : BusOutcome) (b : BridgeRegs) : (attemptFail c o b).k = b.k := by
  rcases attemptFail_cases c o b with ⟨-, -, h⟩ | ⟨-, h⟩ <;> simp [h, finish]

/-- A failed attempt goes on from the command, or ends the operation. -/
theorem attemptFail_bst (c : Config) (o : BusOutcome) (b : BridgeRegs) :
    (attemptFail c o b).bst = .bCmd ∨ (attemptFail c o b).bst = .bIdle := by
  rcases attemptFail_cases c o b with ⟨-, -, h⟩ | ⟨-, h⟩ <;> rw [h] <;> simp [finish]

theorem stillPolling_cases (c : Config) (b : BridgeRegs) :
    (b.k = c.statusPollMax ∧ stillPolling c b = attemptFail c .timeout b) ∨
    (b.k ≠ c.statusPollMax ∧ stillPolling c b = b) := by
  by_cases h : b.k = c.statusPollMax <;> simp [stillPolling, h]

/-- Everything one exchange can make of the registers of `BRG`, where one is next (R97 to R112): the attempt fails, the operation
ends (`rd` set only by a matching data report), polling begins or goes on, or the data fetch is next. `b0` is `b` with `k`
already counted. -/
theorem bridgeReact_cases (c : Config) (a : XchgAnswer) (b : BridgeRegs)
    (h : b.bst = .bCmd ∨ b.bst = .bStat ∨ b.bst = .bData) :
    ∃ b0 : BridgeRegs, (b0 = b ∧ b.bst ≠ .bStat ∨ b0 = countPoll c b ∧ b.bst = .bStat) ∧
      ((∃ o, bridgeReact c a b = attemptFail c o b0) ∨
       (∃ o, bridgeReact c a b = finish o b0) ∨
       (b.bst = .bData ∧ ∃ bytes : List Byte, bytes.length + 4 = c.reportSize ∧
          bridgeReact c a b = finish .ok { b0 with rd := overwrite (bytes.take b.rl) b.rd }) ∨
       (b.bst = .bCmd ∧ bridgeReact c a b = { b with k := 0, bst := .bStat }) ∨
       (b.bst = .bStat ∧ (countPoll c b).k ≠ c.statusPollMax ∧ bridgeReact c a b = b0) ∨
       (b.bst = .bStat ∧ bridgeReact c a b = { b0 with bst := .bData })) := by
  rcases h with h | h | h
  · refine ⟨b, .inl ⟨rfl, by simp [h]⟩, ?_⟩
    have hb : bridgeReact c a b = afterCommand c (xchgResult c a (cmdCode c b.op)) b := by unfold bridgeReact; rw [h]
    rw [hb]
    cases xchgResult c a (cmdCode c b.op) <;> first
      | exact .inl ⟨_, rfl⟩
      | exact .inr (.inl ⟨_, rfl⟩)
      | exact .inr (.inr (.inr (.inl ⟨h, rfl⟩)))
  · refine ⟨countPoll c b, .inr ⟨rfl, h⟩, ?_⟩
    have hb : bridgeReact c a b
        = afterStatus c (xchgResult c a c.cmdGetStatus) (countPoll c b) := by
      unfold bridgeReact; rw [h]
    have hp : (∃ o, stillPolling c (countPoll c b) = attemptFail c o (countPoll c b)) ∨
        ((countPoll c b).k ≠ c.statusPollMax ∧ stillPolling c (countPoll c b) = countPoll c b) := by
      rcases stillPolling_cases c (countPoll c b) with ⟨-, h⟩ | ⟨hk, h⟩
      · exact .inl ⟨_, h⟩
      · exact .inr ⟨hk, h⟩
    rw [hb]
    cases xchgResult c a c.cmdGetStatus with
    | status st =>
      cases st
      · exact hp.elim .inl (fun g => .inr (.inr (.inr (.inr (.inl ⟨h, g⟩)))))
      · simp only [afterStatus]
        split
        · exact .inr (.inr (.inr (.inr (.inr ⟨h, rfl⟩))))
        · exact .inr (.inl ⟨_, rfl⟩)
      · exact .inl ⟨_, rfl⟩
      · exact .inl ⟨_, rfl⟩
    | ioErr => exact .inr (.inl ⟨_, rfl⟩)
    | badSize => exact .inr (.inl ⟨_, rfl⟩)
    | noAnswer | accepted | busy | data | noData =>
      exact hp.elim .inl (fun g => .inr (.inr (.inr (.inr (.inl ⟨h, g⟩)))))
  · refine ⟨b, .inl ⟨rfl, by simp [h]⟩, ?_⟩
    have hb : bridgeReact c a b = afterData c (xchgResult c a c.cmdGetData) b := by unfold bridgeReact; rw [h]
    rw [hb]
    cases hx : xchgResult c a c.cmdGetData with
    | data n bytes =>
      simp only [afterData]
      split
      · exact .inr (.inr (.inl ⟨h, bytes, xchgResult_data_length hx, rfl⟩))
      · exact .inl ⟨_, rfl⟩
    | ioErr => exact .inr (.inl ⟨_, rfl⟩)
    | badSize => exact .inr (.inl ⟨_, rfl⟩)
    | noAnswer | accepted | busy | status | noData => exact .inl ⟨_, rfl⟩

/-- One exchange keeps the operation latch (R15: constant during the operation). -/
theorem bridgeReact_latch (c : Config) (a : XchgAnswer) (b : BridgeRegs) : SameLatch b (bridgeReact c a b) := by
  by_cases h : b.bst = .bCmd ∨ b.bst = .bStat ∨ b.bst = .bData
  · obtain ⟨b0, hb0, hr⟩ := bridgeReact_cases c a b h
    have h0 : SameLatch b b0 := by rcases hb0 with ⟨rfl, -⟩ | ⟨rfl, -⟩ <;> constructor <;> rfl
    rcases hr with ⟨o, h⟩ | ⟨o, h⟩ | ⟨-, bytes, -, h⟩ | ⟨-, h⟩ | ⟨-, -, h⟩ | ⟨-, h⟩ <;> rw [h]
    · exact h0.trans (attemptFail_latch c o b0)
    · exact ⟨h0.op, h0.ta, h0.wl, h0.wd, h0.rl⟩
    · exact ⟨h0.op, h0.ta, h0.wl, h0.wd, h0.rl⟩
    · constructor <;> rfl
    · exact h0
    · exact ⟨h0.op, h0.ta, h0.wl, h0.wd, h0.rl⟩
  · cases hb : b.bst <;> simp_all [bridgeReact] <;> constructor <;> rfl

/-! ### Start -/

theorem overwrite_length (new old : List Byte) (h : new.length ≤ old.length) :
    (overwrite new old).length = old.length := by
  simp [overwrite]; omega

@[simp] theorem overwrite_take (new old : List Byte) : (overwrite new old).take new.length = new := by
  simp [overwrite]

/-! ### The bounds of a request (R91 (a)) -/

theorem argsOk_writeRequest (c : Config) (ta : Byte) (w : List Byte) :
    argsOk c (writeRequest ta w) = true ↔ ta.toNat ≤ 127 ∧ 1 ≤ w.length ∧ w.length ≤ c.maxPayload := by
  simp only [argsOk, writeRequest, decide_true, Bool.and_true, Bool.and_eq_true, targetOk_iff, payloadOk_iff]

theorem argsOk_readRequest (c : Config) (ta : Byte) (n : Nat) :
    argsOk c (readRequest ta n) = true ↔ ta.toNat ≤ 127 ∧ 1 ≤ n ∧ n ≤ c.maxPayload := by
  simp only [argsOk, readRequest, List.length_nil, decide_true, Bool.true_and, Bool.and_eq_true, targetOk_iff,
    readLenOk_iff]

theorem argsOk_writeReadRequest (c : Config) (ta : Byte) (w : List Byte) (n : Nat) :
    argsOk c (writeReadRequest ta w n) = true ↔
      ta.toNat ≤ 127 ∧ (1 ≤ w.length ∧ w.length ≤ c.maxPayload) ∧ 1 ≤ n ∧ n ≤ c.maxPayload := by
  simp only [argsOk, writeReadRequest, Bool.and_eq_true, targetOk_iff, payloadOk_iff, readLenOk_iff]

/-- The bounds an admitted request keeps (R91 (a)). -/
theorem argsOk_bounds {c : Config} {q : Request} (h : argsOk c q = true) (hm : 4 ≤ c.maxPayload) :
    q.ta.toNat ≤ 127 ∧ q.w.length ≤ c.maxPayload ∧ q.r ≤ c.maxPayload := by
  obtain ⟨op, ta, w, r⟩ := q
  simp only [argsOk, Bool.and_eq_true, targetOk_iff] at h
  obtain ⟨h1, h2⟩ := h
  refine ⟨h1, ?_⟩
  cases op <;>
    simp only [Bool.and_eq_true, payloadOk_iff, readLenOk_iff, decide_eq_true_eq, List.length_eq_zero_iff] at h2 ⊢
  · omega
  · omega
  · obtain ⟨rfl, h2⟩ := h2; exact ⟨Nat.zero_le _, h2.2⟩
  · omega

/-- The latch of a started operation holds the request (R92). -/
theorem latchedRequest_startOp {c : Config} {q : Request} (b : BridgeRegs) (h : argsOk c q = true)
    (hm : 4 ≤ c.maxPayload) : latchedRequest (startOp c q b) = q := by
  obtain ⟨h1, h2, h3⟩ := argsOk_bounds h hm
  obtain ⟨op, ta, w, r⟩ := q
  simp only at h1 h2 h3
  have hta : (ta.setWidth 7).setWidth 8 = ta := by
    apply BitVec.eq_of_toNat_eq; simp; omega
  simp [latchedRequest, startOp, hta, lenReg_of_le h2, lenReg_of_le h3]

/-! ### A whole operation -/

theorem runBridge_cfg (n : Nat) (s : State) : (runBridge n s).cfg = s.cfg := by
  induction n generalizing s with
  | zero => rfl
  | succ n ih => unfold runBridge; split <;> simp [ih]
theorem runBridge_seq (n : Nat) (s : State) : (runBridge n s).seq = s.seq := by
  induction n generalizing s with
  | zero => rfl
  | succ n ih => unfold runBridge; split <;> simp [ih]
theorem runBridge_port (n : Nat) (s : State) : (runBridge n s).port = s.port := by
  induction n generalizing s with
  | zero => rfl
  | succ n ih => unfold runBridge; split <;> simp [ih]
theorem runBridge_slt (n : Nat) (s : State) : (runBridge n s).slt = s.slt := by
  induction n generalizing s with
  | zero => rfl
  | succ n ih => unfold runBridge; split <;> simp [ih]
theorem runBridge_scratch (n : Nat) (s : State) : (runBridge n s).scratch = s.scratch := by
  induction n generalizing s with
  | zero => rfl
  | succ n ih => unfold runBridge; split <;> simp [ih]
theorem runBridge_out (n : Nat) (s : State) : (runBridge n s).out = s.out := by
  induction n generalizing s with
  | zero => rfl
  | succ n ih => unfold runBridge; split <;> simp [ih]

/-- An operation writes the registers of `BRG`, the trace `HID` and the world's answers, nothing else (R113 to R116). -/
theorem driverOp_onlyBridge (q : Request) (s : State) : onlyBridge s (driverOp q s) := by
  simp [onlyBridge, driverOp, runBridge_cfg, runBridge_seq, runBridge_port, runBridge_slt, runBridge_scratch,
    runBridge_out]

/-- Everything `request` can do (R91). -/
theorem request_cases (q : Request) (s : State) :
    (s.brg.bst ≠ .bIdle ∧ request q s = .refused .notAdmitted) ∨
    (s.brg.bst = .bIdle ∧ argsOk s.cfg q = false ∧ request q s = .refused .badArg) ∨
    (s.brg.bst = .bIdle ∧ argsOk s.cfg q = true ∧ request q s = .next (driverOp q s)) := by
  unfold request
  by_cases h : s.brg.bst = .bIdle
  · cases ha : argsOk s.cfg q <;> simp [h]
  · simp [h]

end Sys2Proof.Machine
end

