-- ==== Sys2Proof/Laws/PerInstr.lean ====
section
/-! SUPPORT. The family `EncodeLength`: every report an instruction is encoded by has exactly `REPORT_SIZE` bytes (R41). -/

namespace Sys2Proof.Laws

open Sys2Proof

/-- On every legal instance, where a well-formed instruction is encoded by a report, the report has `REPORT_SIZE` bytes (R41, R60,
R61). -/
def EncodeLength.Statement (i : Instr) : Prop :=
  ∀ c : Config, c.legal = true → i.wellFormed c = true →
    ∀ r : Report, encode c i = some (.cmd r) ∨ encode c i = some (.rsp (some r)) → r.length = c.reportSize

/-- A command report has `REPORT_SIZE` bytes where its payload fits. -/
theorem commandReport_length {c : Config} (hc : c.legal = true) (code ta : Byte) (w : List Byte) (rl : Byte)
    (h : w.length ≤ c.maxPayload) : (commandReport c code ta w rl).length = c.reportSize := by
  have := legal_maxPayload hc
  simp [commandReport]; omega

theorem payloadOk_length {c : Config} {w : List Byte} (h : payloadOk c w = true) : w.length ≤ c.maxPayload :=
  ((payloadOk_iff c w).1 h).2

/-- A response of `used` defined bytes has `REPORT_SIZE` bytes where the ignored ones fill it. -/
theorem restOk_length {c : Config} {used : Nat} {rest : List Byte} (h : restOk c used rest = true) :
    used + rest.length = c.reportSize := by
  simpa only [restOk, decide_eq_true_eq] using h

/-- A report of one code byte, filled with `PAD`, has `REPORT_SIZE` bytes. -/
theorem codeReport_length {c : Config} (hc : c.legal = true) (code : Byte) :
    (code :: List.replicate (c.reportSize - 1) c.pad).length = c.reportSize := by
  have := legal_reportSize hc
  simp; omega

theorem EncodeLength.setSpeed (a : BitVec 32) : EncodeLength.Statement (.setSpeed a) := by
  rintro c hc - r (h | h) <;> cases h
  have h1 := legal_maxPayload hc
  have h2 := legal_reportSize hc
  exact commandReport_length hc _ _ (speedBytes _) _ (show 4 ≤ c.maxPayload by omega)

theorem EncodeLength.i2cWrite (a : BitVec 7) (b : List Byte) : EncodeLength.Statement (.i2cWrite a b) := by
  rintro c hc hw r (h | h) <;> cases h
  simp only [Instr.wellFormed, Bool.and_eq_true] at hw
  exact commandReport_length hc _ _ _ _ (payloadOk_length hw.1)

theorem EncodeLength.i2cRead (a : BitVec 7) (b : Byte) : EncodeLength.Statement (.i2cRead a b) := by
  rintro c hc - r (h | h) <;> cases h
  exact commandReport_length hc _ _ [] _ (Nat.zero_le _)

theorem EncodeLength.i2cWriteRead (a : BitVec 7) (b : List Byte) (d : Byte) :
    EncodeLength.Statement (.i2cWriteRead a b d) := by
  rintro c hc hw r (h | h) <;> cases h
  simp only [Instr.wellFormed, Bool.and_eq_true] at hw
  exact commandReport_length hc _ _ _ _ (payloadOk_length hw.1.1)

theorem EncodeLength.getStatus : EncodeLength.Statement .getStatus := by
  rintro c hc - r (h | h) <;> cases h
  exact codeReport_length hc _

theorem EncodeLength.getData : EncodeLength.Statement .getData := by
  rintro c hc - r (h | h) <;> cases h
  exact codeReport_length hc _

theorem EncodeLength.rspAccepted (a : Byte) (b : List Byte) : EncodeLength.Statement (.rspAccepted a b) := by
  rintro c hc hw r (h | h) <;> cases h
  simp only [Instr.wellFormed, Bool.and_eq_true] at hw
  have := restOk_length hw.2
  simp only [List.length_cons]; omega

theorem EncodeLength.rspBusy (a : Byte) (b : List Byte) : EncodeLength.Statement (.rspBusy a b) := by
  rintro c hc hw r (h | h) <;> cases h
  simp only [Instr.wellFormed, Bool.and_eq_true] at hw
  have := restOk_length hw.2
  simp only [List.length_cons]; omega

theorem EncodeLength.rspStatusInProgress (a : List Byte) : EncodeLength.Statement (.rspStatusInProgress a) := by
  rintro c hc hw r (h | h) <;> cases h
  have := restOk_length hw
  simp only [List.length_cons]; omega

theorem EncodeLength.rspStatusComplete (a : List Byte) : EncodeLength.Statement (.rspStatusComplete a) := by
  rintro c hc hw r (h | h) <;> cases h
  have := restOk_length hw
  simp only [List.length_cons]; omega

theorem EncodeLength.rspStatusErrNack (a : List Byte) : EncodeLength.Statement (.rspStatusErrNack a) := by
  rintro c hc hw r (h | h) <;> cases h
  have := restOk_length hw
  simp only [List.length_cons]; omega

theorem EncodeLength.rspStatusErrTimeout (a : List Byte) : EncodeLength.Statement (.rspStatusErrTimeout a) := by
  rintro c hc hw r (h | h) <;> cases h
  have := restOk_length hw
  simp only [List.length_cons]; omega

theorem EncodeLength.rspData (a : Byte) (b : Byte) (c : List Byte) : EncodeLength.Statement (.rspData a b c) := by
  rintro c hc hw r (h | h) <;> cases h
  have := restOk_length hw
  simp only [List.length_cons]; omega

theorem EncodeLength.rspNoData (a : List Byte) : EncodeLength.Statement (.rspNoData a) := by
  rintro c hc hw r (h | h) <;> cases h
  have := restOk_length hw
  simp only [List.length_cons]; omega

theorem EncodeLength.rspNoAnswer (a : Option Report) : EncodeLength.Statement (.rspNoAnswer a) := by
  rintro c hc hw r (h | h) <;> cases h
  simp only [Instr.wellFormed, Bool.and_eq_true, decide_eq_true_eq] at hw
  exact hw.1

theorem EncodeLength.configure (a : BitVec 32) : EncodeLength.Statement (.configure a) := by
  rintro c hc - r (h | h) <;> cases h

theorem EncodeLength.write (a : Byte) (b : List Byte) : EncodeLength.Statement (.write a b) := by
  rintro c hc - r (h | h) <;> cases h

theorem EncodeLength.read (a : Byte) (b : Nat) : EncodeLength.Statement (.read a b) := by
  rintro c hc - r (h | h) <;> cases h

theorem EncodeLength.writeRead (a : Byte) (b : List Byte) (c : Nat) : EncodeLength.Statement (.writeRead a b c) := by
  rintro c hc - r (h | h) <;> cases h

theorem EncodeLength.decodeEmpty : EncodeLength.Statement .decodeEmpty := by
  rintro c hc - r (h | h) <;> cases h

theorem EncodeLength.decodeCharging : EncodeLength.Statement .decodeCharging := by
  rintro c hc - r (h | h) <;> cases h

theorem EncodeLength.decodeFull : EncodeLength.Statement .decodeFull := by
  rintro c hc - r (h | h) <;> cases h

theorem EncodeLength.decodeError : EncodeLength.Statement .decodeError := by
  rintro c hc - r (h | h) <;> cases h

theorem EncodeLength.initDir : EncodeLength.Statement .initDir := by
  rintro c hc - r (h | h) <;> cases h

theorem EncodeLength.initPu : EncodeLength.Statement .initPu := by
  rintro c hc - r (h | h) <;> cases h

theorem EncodeLength.initExpander : EncodeLength.Statement .initExpander := by
  rintro c hc - r (h | h) <;> cases h

theorem EncodeLength.readPort : EncodeLength.Statement .readPort := by
  rintro c hc - r (h | h) <;> cases h

theorem EncodeLength.poll : EncodeLength.Statement .poll := by
  rintro c hc - r (h | h) <;> cases h

theorem EncodeLength.boot : EncodeLength.Statement .boot := by
  rintro c hc - r (h | h) <;> cases h

theorem EncodeLength.openBridge : EncodeLength.Statement .openBridge := by
  rintro c hc - r (h | h) <;> cases h

theorem EncodeLength.reconnect : EncodeLength.Statement .reconnect := by
  rintro c hc - r (h | h) <;> cases h

theorem EncodeLength.stop : EncodeLength.Statement .stop := by
  rintro c hc - r (h | h) <;> cases h

theorem EncodeLength.reset : EncodeLength.Statement .reset := by
  rintro c hc - r (h | h) <;> cases h

theorem EncodeLength.debounce (a : Fin 6) (b : SlotState) : EncodeLength.Statement (.debounce a b) := by
  rintro c hc - r (h | h) <;> cases h

theorem EncodeLength.publish (a : Time) : EncodeLength.Statement (.publish a) := by
  rintro c hc - r (h | h) <;> cases h

theorem EncodeLength.dispatch (a : Time) : EncodeLength.Statement (.dispatch a) := by
  rintro c hc - r (h | h) <;> cases h

theorem EncodeLength.notify (a : Fin 6) (b : SlotState) (c : SlotState) (d : Time) : EncodeLength.Statement (.notify a b c d) := by
  rintro c hc - r (h | h) <;> cases h

theorem EncodeLength.getSnapshot : EncodeLength.Statement .getSnapshot := by
  rintro c hc - r (h | h) <;> cases h

end Sys2Proof.Laws
end

