-- ==== Sys2Proof/Laws/Word.lean ====
section
/-! SUPPORT. Laws of the six-element arrays. -/

namespace Sys2Proof

variable {α : Type}

@[simp] theorem Six.get_fill (a : α) (i : Fin 6) : (Six.fill a).get i = a := by
  fin_cases i <;> rfl

@[simp] theorem Six.get_set_self (v : Six α) (i : Fin 6) (a : α) : (v.set i a).get i = a := by
  fin_cases i <;> rfl

theorem Six.get_set_of_ne (v : Six α) {i j : Fin 6} (a : α) (h : j ≠ i) : (v.set i a).get j = v.get j := by
  fin_cases i <;> fin_cases j <;> first | rfl | exact absurd rfl h

theorem Six.get_set (v : Six α) (i j : Fin 6) (a : α) :
    (v.set i a).get j = if j = i then a else v.get j := by
  split
  · next h => subst h; simp
  · next h => exact Six.get_set_of_ne v a h

theorem Six.ext_get {v w : Six α} (h : ∀ i, v.get i = w.get i) : v = w := by
  cases v; cases w
  have h0 := h 0; have h1 := h 1; have h2 := h 2; have h3 := h 3; have h4 := h 4; have h5 := h 5
  simp only [Six.get] at h0 h1 h2 h3 h4 h5
  subst h0 h1 h2 h3 h4 h5; rfl

@[simp] theorem Six.set_get_self (v : Six α) (i : Fin 6) : v.set i (v.get i) = v := by
  fin_cases i <;> rfl

theorem Six.eq_fill {v : Six α} {a : α} (h : ∀ i, v.get i = a) : v = Six.fill a :=
  Six.ext_get (fun i => by simp [h i])

end Sys2Proof
end

