-- ==== Sys2Proof/Laws/SlotEngine.lean ====
section
/-! SUPPORT. What the slot engine can do, slot by slot and in a whole cycle, said once. -/

namespace Sys2Proof.Machine

theorem decodeLeds_ne_unknown (c f : Bool) : decodeLeds c f ≠ .unknown := by
  cases c <;> cases f <;> decide

theorem decodedSlot_ne_unknown (s : State) (i : Fin 6) : decodedSlot s i ≠ .unknown := decodeLeds_ne_unknown _ _

/-- Everything one debounce can do (R148 to R152). -/
theorem debounceOne_cases (n : BitVec 8) (d commit cand : SlotState) (cnt : BitVec 8) :
    (d = commit ∧ debounceOne n d commit cand cnt = ⟨commit, d, 0#8, none⟩) ∨
    (d ≠ commit ∧ n.toNat ≤ (observations d cand cnt).toNat ∧
      debounceOne n d commit cand cnt = ⟨d, d, 0#8, some (commit, d)⟩) ∨
    (d ≠ commit ∧ (observations d cand cnt).toNat < n.toNat ∧
      debounceOne n d commit cand cnt = ⟨commit, d, observations d cand cnt, none⟩) := by
  unfold debounceOne
  by_cases h : d = commit
  · exact .inl ⟨h, by rw [if_pos h]⟩
  · by_cases h2 : n.toNat ≤ (observations d cand cnt).toNat
    · exact .inr (.inl ⟨h, h2, by rw [if_neg h, if_pos h2]⟩)
    · exact .inr (.inr ⟨h, by omega, by rw [if_neg h, if_neg h2]⟩)

/-- The observation count of R150 and R151 does not overflow (R167). -/
theorem observations_toNat (d cand : SlotState) (cnt : BitVec 8) (h : cnt.toNat < 255) :
    (observations d cand cnt).toNat
      = if d = cand ∧ 0 < cnt.toNat then cnt.toNat + 1 else 1 := by
  unfold observations; split
  · rw [BitVec.toNat_add, Nat.mod_eq_of_lt]
    · rfl
    · simp; omega
  · rfl

/-! ### One slot's pass -/

/-- The result of slot i's debounce in the state `s`. -/
def slotResult (s : State) (i : Fin 6) : SlotStep :=
  debounceOne s.cfg.debounceN (decodedSlot s i) (s.slt.commit.get i) (s.slt.cand.get i) (s.slt.cnt.get i)

section
variable (s : State) (i : Fin 6)

@[simp] theorem slotPass_cfg : (slotPass s i).cfg = s.cfg := rfl
@[simp] theorem slotPass_seq : (slotPass s i).seq = s.seq := rfl
@[simp] theorem slotPass_brg : (slotPass s i).brg = s.brg := rfl
@[simp] theorem slotPass_port : (slotPass s i).port = s.port := rfl
@[simp] theorem slotPass_out : (slotPass s i).out = s.out := rfl
@[simp] theorem slotPass_hid : (slotPass s i).hid = s.hid := rfl
@[simp] theorem slotPass_world : (slotPass s i).world = s.world := rfl
@[simp] theorem slotPass_snap : (slotPass s i).slt.snap = s.slt.snap := rfl
theorem slotPass_commit : (slotPass s i).slt.commit = s.slt.commit.set i (slotResult s i).commit := rfl
theorem slotPass_cand : (slotPass s i).slt.cand = s.slt.cand.set i (slotResult s i).cand := rfl
theorem slotPass_cnt : (slotPass s i).slt.cnt = s.slt.cnt.set i (slotResult s i).cnt := rfl
theorem slotPass_ev : (slotPass s i).scratch.ev = s.scratch.ev.set i (slotResult s i).ev := rfl
theorem slotPass_dec : (slotPass s i).scratch.dec = decodedSlot s i := rfl

end

/-- A pass over another slot leaves what this slot's debounce reads. -/
theorem slotResult_slotPass {i j : Fin 6} (s : State) (h : j ≠ i) :
    slotResult (slotPass s i) j = slotResult s j := by
  simp only [slotResult, decodedSlot, slotPass_cfg, slotPass_port, slotPass_commit, slotPass_cand, slotPass_cnt,
    Six.get_set_of_ne _ _ h]

/-- Passes over a list of slots without repeats: a slot of the list gets its own debounce, another keeps what it had. -/
theorem foldl_slotPass_get (l : List (Fin 6)) (hl : l.Nodup) (s : State) (i : Fin 6) :
    (i ∈ l → (l.foldl slotPass s).slt.commit.get i = (slotResult s i).commit ∧
      (l.foldl slotPass s).slt.cand.get i = (slotResult s i).cand ∧
      (l.foldl slotPass s).slt.cnt.get i = (slotResult s i).cnt ∧
      (l.foldl slotPass s).scratch.ev.get i = (slotResult s i).ev) ∧
    (i ∉ l → (l.foldl slotPass s).slt.commit.get i = s.slt.commit.get i ∧
      (l.foldl slotPass s).slt.cand.get i = s.slt.cand.get i ∧
      (l.foldl slotPass s).slt.cnt.get i = s.slt.cnt.get i ∧
      (l.foldl slotPass s).scratch.ev.get i = s.scratch.ev.get i) := by
  induction l generalizing s with
  | nil => simp
  | cons j l ih =>
    obtain ⟨hj, hl⟩ := List.nodup_cons.mp hl
    obtain ⟨ih1, ih2⟩ := ih hl (slotPass s j)
    simp only [List.foldl_cons]
    by_cases hij : i = j
    · subst hij
      refine ⟨fun _ => ?_, fun h => absurd (List.mem_cons_self ..) h⟩
      obtain ⟨h1, h2, h3, h4⟩ := ih2 hj
      rw [h1, h2, h3, h4]
      simp [slotPass_commit, slotPass_cand, slotPass_cnt, slotPass_ev]
    · refine ⟨fun h => ?_, fun h => ?_⟩
      · have := ih1 ((List.mem_cons.mp h).resolve_left hij)
        rwa [slotResult_slotPass s hij] at this
      · have := ih2 (fun h' => h (List.mem_cons_of_mem _ h'))
        simpa only [slotPass_commit, slotPass_cand, slotPass_cnt, slotPass_ev, Six.get_set_of_ne _ _ hij] using this

theorem mem_slotOrder (i : Fin 6) : i ∈ slotOrder := by fin_cases i <;> decide

/-- The six passes, in closed form (R145): every slot's registers are its own debounce. -/
theorem slotPasses_get (s : State) (i : Fin 6) :
    (slotOrder.foldl slotPass s).slt.commit.get i = (slotResult s i).commit ∧
    (slotOrder.foldl slotPass s).slt.cand.get i = (slotResult s i).cand ∧
    (slotOrder.foldl slotPass s).slt.cnt.get i = (slotResult s i).cnt ∧
    (slotOrder.foldl slotPass s).scratch.ev.get i = (slotResult s i).ev :=
  (foldl_slotPass_get slotOrder (by decide) s i).1 (mem_slotOrder i)

theorem slotPasses_frame (s : State) :
    (slotOrder.foldl slotPass s).cfg = s.cfg ∧ (slotOrder.foldl slotPass s).seq = s.seq ∧
    (slotOrder.foldl slotPass s).brg = s.brg ∧ (slotOrder.foldl slotPass s).port = s.port ∧
    (slotOrder.foldl slotPass s).out = s.out ∧ (slotOrder.foldl slotPass s).hid = s.hid ∧
    (slotOrder.foldl slotPass s).world = s.world ∧
    (slotOrder.foldl slotPass s).slt.snap = s.slt.snap := by
  generalize slotOrder = l
  induction l generalizing s with
  | nil => simp
  | cons i l ih => simpa using ih (slotPass s i)

/-! ### Dispatch -/

theorem dispatchSlot_eq (t : Time) (s : State) (i : Fin 6) :
    dispatchSlot t s i = { s with out := s.out ++ emitted s t i } := by
  cases he : s.scratch.ev.get i with
  | none => simp [dispatchSlot, emitted, he]
  | some p =>
    by_cases hn : s.cfg.notifyEn = true ∧ p.2 = .full
    · simp [dispatchSlot, emitted, he, notifyGate, hn]
    · simp [dispatchSlot, emitted, he, notifyGate, hn]

/-- Dispatch over a list of slots. -/
theorem foldl_dispatchSlot (t : Time) (l : List (Fin 6)) (s : State) :
    l.foldl (dispatchSlot t) s = { s with out := s.out ++ l.flatMap (emitted s t) } := by
  induction l generalizing s with
  | nil => rw [List.foldl_nil, List.flatMap_nil, List.append_nil]
  | cons i l ih =>
    rw [List.foldl_cons, dispatchSlot_eq, ih, List.flatMap_cons, ← List.append_assoc]
    rfl

/-- `Dispatch` in closed form (R156, R161). -/
theorem dispatchEvents_eq (t : Time) (s : State) :
    dispatchEvents t s = { s with
      out := s.out ++ slotOrder.flatMap (emitted s t)
      scratch := { s.scratch with ev := Six.fill none } } := by
  unfold dispatchEvents
  rw [foldl_dispatchSlot]
  rfl

/-- The state in the middle of a cycle: all six slots debounced, the snapshot published (R145). -/
def published (t : Time) (s : State) : State := publishSnapshot t (slotOrder.foldl slotPass s)

theorem published_out (t : Time) (s : State) : (published t s).out = s.out := (slotPasses_frame s).2.2.2.2.1

/-- The cycle in closed form (R145): registers, snapshot, events. -/
theorem slotCycle_eq (t : Time) (s : State) :
    slotCycle t s = { published t s with
      out := s.out ++ slotOrder.flatMap (emitted (published t s) t)
      scratch := { (published t s).scratch with ev := Six.fill none } } := by
  rw [← published_out t s, ← dispatchEvents_eq]
  rfl

theorem slotCycle_slt (t : Time) (s : State) : (slotCycle t s).slt = (published t s).slt := by rw [slotCycle_eq]

theorem slotCycle_out (t : Time) (s : State) :
    (slotCycle t s).out = s.out ++ slotOrder.flatMap (emitted (published t s) t) := by rw [slotCycle_eq]

theorem slotCycle_frame (t : Time) (s : State) :
    (slotCycle t s).cfg = s.cfg ∧ (slotCycle t s).seq = s.seq ∧ (slotCycle t s).brg = s.brg ∧
    (slotCycle t s).port = s.port ∧ (slotCycle t s).hid = s.hid ∧ (slotCycle t s).world = s.world ∧
    (slotCycle t s).scratch.ev = Six.fill none := by
  obtain ⟨h1, h2, h3, h4, h5, h6, h7, h8⟩ := slotPasses_frame s
  rw [slotCycle_eq]
  simp only [published, publishSnapshot_cfg, publishSnapshot_seq, publishSnapshot_brg, publishSnapshot_port,
    publishSnapshot_hid, publishSnapshot_world, h1, h2, h3, h4, h6, h7, and_self]

/-- Every slot's registers after a cycle are its own debounce. -/
theorem slotCycle_get (t : Time) (s : State) (i : Fin 6) :
    (slotCycle t s).slt.commit.get i = (slotResult s i).commit ∧
    (slotCycle t s).slt.cand.get i = (slotResult s i).cand ∧
    (slotCycle t s).slt.cnt.get i = (slotResult s i).cnt := by
  obtain ⟨h1, h2, h3, -⟩ := slotPasses_get s i
  rw [slotCycle_slt, published, publishSnapshot_slt]
  exact ⟨h1, h2, h3⟩

theorem slotCycle_snap (t : Time) (s : State) :
    (slotCycle t s).slt.snap = { st := (slotCycle t s).slt.commit, ts := t, stale := false } := by
  rw [slotCycle_slt]; rfl

end Sys2Proof.Machine
end

