-- ==== Sys2Proof/Laws/Sequencer.lean ====
section
/-! SUPPORT. What the sequencer's reactions and starts can do, and what the beginning of a step does, said once. -/

namespace Sys2Proof.Machine

/-! ### The sequencer's own requests are in bounds (R91 (a), R113, R131 to R133) -/

theorem argsOk_configureRequest (c : Config) (v : BitVec 32) : argsOk c (configureRequest v) = true := by
  simp [argsOk, configureRequest, speedBytes, targetOk]

theorem argsOk_initDirRequest {c : Config} (h : c.legal = true) : argsOk c (initDirRequest c) = true := by
  have h1 := legal_maxPayload h
  have h2 := legal_reportSize h
  exact (argsOk_writeRequest ..).2 ⟨(targetOk_iff _).1 (legal_expAddr h), by simp [halves]; omega⟩

theorem argsOk_initPuRequest {c : Config} (h : c.legal = true) : argsOk c (initPuRequest c) = true := by
  have h1 := legal_maxPayload h
  have h2 := legal_reportSize h
  exact (argsOk_writeRequest ..).2 ⟨(targetOk_iff _).1 (legal_expAddr h), by simp [halves]; omega⟩

theorem argsOk_readPortRequest {c : Config} (h : c.legal = true) : argsOk c (readPortRequest c) = true := by
  have h1 := legal_maxPayload h
  have h2 := legal_reportSize h
  exact (argsOk_writeReadRequest ..).2 ⟨(targetOk_iff _).1 (legal_expAddr h), by simp; omega, by omega⟩

theorem argsOk_ownRequest {s : State} {q : Request} (h : s.cfg.legal = true) (hq : ownRequest s = some q) :
    argsOk s.cfg q = true := by
  unfold ownRequest at hq
  split at hq <;> cases hq
  · exact argsOk_configureRequest _ _
  · exact argsOk_initDirRequest h
  · exact argsOk_initPuRequest h
  · exact argsOk_readPortRequest h

/-! ### Starts -/

theorem startOwn_of_ok {q : Request} (s : State) (h : argsOk s.cfg q = true) :
    startOwn q s = setBrg (startOp s.cfg q s.brg) s := by
  simp [startOwn, h]

/-- In a state that has an operation of its own, a start loads the latch with its request and nothing else (R92). -/
theorem startStep_of_own {s : State} {q : Request} (h : s.cfg.legal = true) (hq : ownRequest s = some q) :
    startStep s = setBrg (startOp s.cfg q s.brg) s := by
  have ha := argsOk_ownRequest h hq
  rw [← startOwn_of_ok s ha]
  cases hs : s.seq.sst <;> simp only [ownRequest, hs, Option.some.injEq, reduceCtorEq] at hq
  all_goals subst hq; simp only [startStep, hs]

/-! ### Reactions -/

theorem settle_of_ne_idle {s : State} (h : s.brg.bst ≠ .bIdle) : settle s = s := by simp [settle, h]

theorem settle_of_idle {s : State} (h : s.brg.bst = .bIdle) : settle s = react s := by simp [settle, h]

/-- Everything a reaction can do: the next state of the start-up pass, the slot cycle of a successful poll, an error raised
with a class fixed by the outcome, or nothing where the sequencer has no operation. -/
theorem react_cases (s : State) :
    (s.seq.sst = .sConfig ∧ s.brg.res = .ok ∧ react s = setSst .sInitDir s) ∨
    (s.seq.sst = .sInitDir ∧ s.brg.res = .ok ∧ react s = setSst .sInitPu s) ∨
    (s.seq.sst = .sInitPu ∧ s.brg.res = .ok ∧ react s = setSst .sIdle (setRc false s)) ∨
    (inPass s = true ∧ s.brg.res ≠ .ok ∧ react s = raise (bootErrClass s.brg.res) s.brg.res s) ∨
    (s.seq.sst = .sRead ∧ s.brg.res = .ok ∧ react s = pollDone s) ∨
    (s.seq.sst = .sRead ∧ s.brg.res ≠ .ok ∧ react s = raise (errOf s.brg.res) s.brg.res s) ∨
    ((s.seq.sst = .sOpen ∨ s.seq.sst = .sIdle ∨ s.seq.sst = .sDead ∨ s.seq.sst = .sOff) ∧ react s = s) := by
  by_cases hr : s.brg.res = .ok <;> cases hs : s.seq.sst <;> simp [react, hs, hr, inPass, bootFail, pollFail]

/-- A failed operation of the pass never has the class of a success. -/
theorem bootErrClass_ne_noErr {o : BusOutcome} (h : o ≠ .ok) : bootErrClass o ≠ .noErr := by
  cases o <;> simp_all [bootErrClass]

theorem errOf_ne_noErr {o : BusOutcome} (h : o ≠ .ok) : errOf o ≠ .noErr := by
  cases o <;> simp_all [errOf]

/-- The registers a successful poll leaves (R175). -/
theorem pollDone_fields (s : State) :
    (pollDone s).cfg = s.cfg ∧ (pollDone s).brg = s.brg ∧ (pollDone s).port = assemblePort s.brg.rd ∧
    (pollDone s).seq = { s.seq with sst := .sIdle, err := ⟨.noErr, .ok⟩ } ∧ (pollDone s).hid = s.hid ∧
    (pollDone s).world = s.world ∧
    (pollDone s).slt = (slotCycle s.now (setPort (assemblePort s.brg.rd) s)).slt ∧
    (pollDone s).out = (slotCycle s.now (setPort (assemblePort s.brg.rd) s)).out := by
  obtain ⟨h1, h2, h3, h4, h5, h6, -⟩ := slotCycle_frame s.now (setPort (assemblePort s.brg.rd) s)
  unfold pollDone
  simp only [setSst_cfg, setSst_brg, setSst_port, setSst_seq, setSst_hid, setSst_world, setSst_slt, setSst_out,
    clearError_cfg, clearError_brg, clearError_port, clearError_seq, clearError_hid, clearError_world, clearError_slt,
    clearError_out, h1, h2, h3, h4, h5, h6, setPort_cfg, setPort_brg, setPort_port, setPort_seq, setPort_hid,
    setPort_world, and_self]

/-! ### One exchange, from a command and from a response -/

/-- Everything a command report can do. -/
theorem sendReport_cases (tx : Report) (s : State) :
    (nextReport s.cfg s.brg = some tx ∧ sendReport tx s = .next (exchangeStep s)) ∨
    (nextReport s.cfg s.brg ≠ some tx ∧ sendReport tx s = .refused .notAdmitted) := by
  by_cases h : nextReport s.cfg s.brg = some tx <;> simp [sendReport, h]

/-- Everything a response can do. -/
theorem answerWith_cases (rx : Option Report) (s : State) :
    (exchangeNext s = true ∧ answerWith rx s = .next (answeredStep { send := .ok, recv := rx } s)) ∨
    (exchangeNext s = false ∧ answerWith rx s = .next s) := by
  cases h : exchangeNext s <;> simp [answerWith, h]

/-- The sequencer stops where the block waits. -/
theorem runOwn_of_not (n : Nat) {s : State} (h : ownMoveNext s = false) : runOwn n s = s := by
  cases n <;> simp [runOwn, h]

theorem runOwn_succ (n : Nat) {s : State} (h : ownMoveNext s = true) : runOwn (n + 1) s = runOwn n (ownMove s) := by
  simp [runOwn, h]

/-! ### The beginning of a step -/

section
variable (s : State)

@[simp] theorem beginStep_cfg : (beginStep s).cfg = s.cfg := by unfold beginStep; split <;> rfl
@[simp] theorem beginStep_seq : (beginStep s).seq = s.seq := by unfold beginStep; split <;> rfl
@[simp] theorem beginStep_brg : (beginStep s).brg = s.brg := by unfold beginStep; split <;> rfl
@[simp] theorem beginStep_port : (beginStep s).port = s.port := by unfold beginStep; split <;> rfl
@[simp] theorem beginStep_slt : (beginStep s).slt = s.slt := by unfold beginStep; split <;> rfl
@[simp] theorem beginStep_scratch : (beginStep s).scratch = s.scratch := by unfold beginStep; split <;> rfl
@[simp] theorem beginStep_out : (beginStep s).out = s.out := by unfold beginStep; split <;> rfl
@[simp] theorem beginStep_hid : (beginStep s).hid = s.hid := by unfold beginStep; split <;> rfl
@[simp] theorem beginStep_handle : (beginStep s).world.handle = s.world.handle := by
  have h : s.world.sample.handle = s.world.handle := by unfold World.sample; split <;> rfl
  unfold beginStep
  split <;> simp [h]

end

end Sys2Proof.Machine
end

