-- ==== Sys2Proof/Tests/Slice0.lean ====
section
/-! SUPPORT. Tests: ill-formed terms refused, words of file 95 decoded, one small run per operation against the vectors of
file 95, and a state that meets the hypotheses of each statement. Expected values come from `spec/95_test_vectors.md` (its
vector or program line is named), or from the rule named. -/

namespace Sys2Proof.Tests

open Sys2Proof Sys2Proof.Machine

/-! ### Helpers -/

/-- Bytes shown, filled with zeros to a report (file 95, notation). -/
def rep (bs : List Byte) : Report := bs ++ List.replicate (64 - bs.length) 0#8

/-- The exchange is answered by this report. -/
def ans (bs : List Byte) : XchgAnswer := ⟨.ok, some (rep bs)⟩

/-- No report arrives. -/
def silent : XchgAnswer := ⟨.ok, none⟩

/-- The send fails with IOError. -/
def ioFail : XchgAnswer := ⟨.ioError, none⟩

/-- `S_IDLE`, `B_IDLE`, the handle held, every slot committed EMPTY, a fresh snapshot; these answers to come. -/
def idle (xs : List XchgAnswer) : State :=
  { State.reset with
    seq := { State.reset.seq with sst := .sIdle }
    brg := { State.reset.brg with bst := .bIdle }
    slt := { commit := Six.fill .empty, cand := Six.fill .empty, cnt := Six.fill 0#8,
             snap := { st := Six.fill .empty, ts := 7, stale := false } }
    world := { State.reset.world with handle := true, xchgs := xs } }

/-- The operation `q` of sequencer state `sst` in flight, in bridge state `bst`. -/
def flight (sst : SeqState) (bst : BridgeState) (q : Request) (xs : List XchgAnswer) : State :=
  { idle xs with
    seq := { State.reset.seq with sst := sst }
    brg := { startOp State.reset.cfg q State.reset.brg with bst := bst } }

/-- The same with the retry already used. -/
def second (s : State) : State := { s with brg := { s.brg with tries := 1#1 } }

/-- The same with `n` polls made. -/
def polled (n : Nat) (s : State) : State := { s with brg := { s.brg with k := n } }

/-- The same with the input lines of the next step. -/
def withLine (l : Inputs) (s : State) : State := { s with world := { s.world with lines := [l] } }

/-- The outcome is a next state of which `p` holds. -/
def nextIf (o : Host.Outcome State Fault Refusal) (p : State → Bool) : Bool :=
  match o with
  | .next t => p t
  | .fault _ => false
  | .refused _ => false

/-- The outcome is this refusal. -/
def refusedBy (o : Host.Outcome State Fault Refusal) (r : Refusal) : Bool :=
  match o with
  | .next _ => false
  | .fault _ => false
  | .refused r' => decide (r' = r)

/-- The default instance. -/
def cfg0 : Config := State.reset.cfg
def writeW : Request := initDirRequest cfg0
def readP : Request := readPortRequest cfg0

/-! ### Ill-formed terms are refused (R60 to R78, R91, R148, R157) -/

theorem test_wf_payload_empty : Instr.wellFormed {} (.i2cWrite 0x20#7 []) = false := by decide
theorem test_wf_payload_61 : Instr.wellFormed {} (.i2cWrite 0x20#7 (List.replicate 61 7#8)) = false := by decide
theorem test_wf_payload_60 : Instr.wellFormed {} (.i2cWrite 0x20#7 (List.replicate 60 7#8)) = true := by decide
theorem test_wf_readlen_0 : Instr.wellFormed {} (.i2cRead 0x20#7 0#8) = false := by decide
theorem test_wf_readlen_61 : Instr.wellFormed {} (.i2cWriteRead 0x20#7 [1#8] 61#8) = false := by decide
theorem test_wf_writeread_payload : Instr.wellFormed {} (.writeRead 0x20#8 [] 2) = false := by decide
theorem test_wf_echo : Instr.wellFormed {} (.rspAccepted 0x30#8 (List.replicate 62 0#8)) = false := by decide
theorem test_wf_busy_rest : Instr.wellFormed {} (.rspBusy 0x20#8 (List.replicate 61 0#8)) = false := by decide
theorem test_wf_status_rest : Instr.wellFormed {} (.rspStatusComplete []) = false := by decide
theorem test_wf_data_rest : Instr.wellFormed {} (.rspData 0#8 2#8 [1#8, 2#8]) = false := by decide
theorem test_wf_noanswer_is_row : Instr.wellFormed {} (.rspNoAnswer (some (rep [0x20, 0x00]))) = false := by decide
theorem test_wf_noanswer_length : Instr.wellFormed {} (.rspNoAnswer (some [0x20#8])) = false := by decide
theorem test_wf_target_bit7 : Instr.wellFormed {} (.write 0x80#8 [1#8]) = false := by decide
theorem test_wf_read_61 : Instr.wellFormed {} (.read 0x20#8 61) = false := by decide
theorem test_wf_debounce_unknown : Instr.wellFormed {} (.debounce 0 .unknown) = false := by decide
theorem test_wf_notify_same : Instr.wellFormed {} (.notify 0 .full .full 1) = false := by decide
theorem test_wf_notify_unknown : Instr.wellFormed {} (.notify 0 .full .unknown 1) = false := by decide
theorem test_legal_default : Config.legal {} = true := by decide
theorem test_legal_address : Config.legal { expAddr := 0x80#8 } = false := by decide
theorem test_legal_debounce : Config.legal { debounceN := 0#8 } = false := by decide
/-- The constraints of R5 on the report format, each just met and just missed. -/
theorem test_legal_formats :
    Config.legal { reportSize := 8 } = true ∧ Config.legal { reportSize := 7 } = false ∧
    Config.legal { hdrSize := 5 } = false ∧ Config.legal { pad := 0xFF#8 } = false ∧
    Config.legal { timeW := 1 } = true ∧ Config.legal { timeW := 0 } = false := by decide
/-- Codes may be renamed, but are distinct (R5, 93 U21). -/
theorem test_legal_codes :
    Config.legal { cmdGetData := 0x51#8, resBusy := 0x80#8, stComplete := 0x00#8 } = true ∧
    Config.legal { cmdGetData := 0x10#8 } = false ∧ Config.legal { resBusy := 0x02#8 } = false ∧
    Config.legal { stComplete := 0x01#8 } = false := by decide
/-- With 8-byte reports a payload has at most four bytes (R5); a length byte carries at most 255 (R60). -/
theorem test_wf_payload_instance :
    Instr.wellFormed { reportSize := 8 } (.write 0x20#8 [1#8, 2#8, 3#8, 4#8]) = true ∧
    Instr.wellFormed { reportSize := 8 } (.write 0x20#8 [1#8, 2#8, 3#8, 4#8, 5#8]) = false ∧
    fitsLengthByte 255 = true ∧ fitsLengthByte 256 = false := by decide
theorem test_wf_time :
    Instr.wellFormed { timeW := 8 } (.publish 255) = true ∧ Instr.wellFormed { timeW := 8 } (.publish 256) = false ∧
    Instr.wellFormed { timeW := 8 } (.dispatch 256) = false ∧
    Instr.wellFormed { timeW := 8 } (.notify 0 .empty .full 256) = false := by decide
/-- ⌈log2(n + 1)⌉ (R16, R17): six bits up to 63, a seventh at 64. -/
theorem test_widths :
    [0, 1, 2, 50, 60, 63, 64].map bitWidth = [0, 1, 2, 6, 6, 6, 7] := by decide

/-! ### Words written out from the spec's encodings (vectors E1 to E21) -/

theorem test_decode_setSpeed :
    decode {} (.cmd (rep [0x10, 0x00, 0x04, 0x00, 0x80, 0x1A, 0x06, 0x00])) = .ok (.setSpeed 400000#32) := by decide
theorem test_decode_i2cWrite :
    decode {} (.cmd (rep [0x20, 0x20, 0x03, 0x00, 0x0C, 0xFF, 0xFF]))
      = .ok (.i2cWrite 0x20#7 [0x0C#8, 0xFF#8, 0xFF#8]) := by decide
theorem test_decode_i2cWrite_full :
    decode {} (.cmd ([0x20#8, 0x7F#8, 0x3C#8, 0x00#8] ++ List.replicate 60 0x07#8))
      = .ok (.i2cWrite 0x7F#7 (List.replicate 60 0x07#8)) := by decide
theorem test_decode_i2cRead :
    decode {} (.cmd (rep [0x21, 0x20, 0x00, 0x02])) = .ok (.i2cRead 0x20#7 2#8) := by decide
theorem test_decode_i2cWriteRead :
    decode {} (.cmd (rep [0x22, 0x20, 0x01, 0x02, 0x12])) = .ok (.i2cWriteRead 0x20#7 [0x12#8] 2#8) := by decide
theorem test_decode_getStatus : decode {} (.cmd (rep [0x30])) = .ok .getStatus := by decide
theorem test_decode_getData : decode {} (.cmd (rep [0x31])) = .ok .getData := by decide
theorem test_decode_accepted :
    decode {} (.rsp (some (rep [0x10, 0x00]))) = .ok (.rspAccepted 0x10#8 (List.replicate 62 0#8)) := by decide
theorem test_decode_busy :
    decode {} (.rsp (some (rep [0x20, 0x01]))) = .ok (.rspBusy 0x20#8 (List.replicate 62 0#8)) := by decide
theorem test_decode_inProgress :
    decode {} (.rsp (some (rep [0x30, 0x00, 0x01]))) = .ok (.rspStatusInProgress (List.replicate 61 0#8)) := by decide
theorem test_decode_complete :
    decode {} (.rsp (some (rep [0x30, 0x00, 0x02]))) = .ok (.rspStatusComplete (List.replicate 61 0#8)) := by decide
theorem test_decode_errNack :
    decode {} (.rsp (some (rep [0x30, 0x00, 0x03]))) = .ok (.rspStatusErrNack (List.replicate 61 0#8)) := by decide
theorem test_decode_errTimeout :
    decode {} (.rsp (some (rep [0x30, 0x00, 0x04]))) = .ok (.rspStatusErrTimeout (List.replicate 61 0#8)) := by decide
theorem test_decode_data :
    decode {} (.rsp (some (rep [0x31, 0x00, 0x00, 0x02, 0xEF, 0xFF])))
      = .ok (.rspData 0#8 2#8 ([0xEF#8, 0xFF#8] ++ List.replicate 58 0#8)) := by decide
theorem test_decode_noData :
    decode {} (.rsp (some (rep [0x31, 0x02]))) = .ok (.rspNoData (List.replicate 62 0#8)) := by decide
theorem test_decode_noAnswer :
    decode {} (.rsp (some (rep [0x30, 0x00, 0x05]))) = .ok (.rspNoAnswer (some (rep [0x30, 0x00, 0x05]))) := by decide
theorem test_decode_silence : decode {} (.rsp none) = .ok (.rspNoAnswer none) := by decide
theorem test_decode_configure :
    decode {} (.req 0b00#2 0#8 [0xA0#8, 0x86#8, 0x01#8, 0x00#8] 0) = .ok (.configure 100000#32) := by decide
theorem test_decode_write : decode {} (.req 0b01#2 0x20#8 [0#8, 1#8] 0) = .ok (.write 0x20#8 [0#8, 1#8]) := by decide
theorem test_decode_read : decode {} (.req 0b10#2 0x20#8 [] 60) = .ok (.read 0x20#8 60) := by decide
theorem test_decode_writeRead :
    decode {} (.req 0b11#2 0x20#8 [0x12#8] 2) = .ok (.writeRead 0x20#8 [0x12#8] 2) := by decide
theorem test_decode_pairs :
    decode {} (.pair 0b11#2) = .ok .decodeEmpty ∧ decode {} (.pair 0b10#2) = .ok .decodeCharging ∧
    decode {} (.pair 0b01#2) = .ok .decodeFull ∧ decode {} (.pair 0b00#2) = .ok .decodeError := by decide
/-- Reserved encodings are rejected by name (R60, R78). -/
theorem test_decode_rejects :
    decode {} (.cmd (rep [0x40])) = .rejected .unknownCode ∧
    decode {} (.cmd (rep [0x20, 0xA0, 0x01, 0x00, 0x07])) = .rejected .targetBit7 ∧
    decode {} (.cmd (rep [0x10, 0x00, 0x05, 0x00])) = .rejected .fixedFieldMismatch ∧
    decode {} (.cmd (rep [0x20, 0x20, 0x3D, 0x00])) = .rejected .writeTooLong ∧
    decode {} (.cmd (rep [0x30, 0x00, 0x00, 0x00, 0x01])) = .rejected .padNotZero ∧
    decode {} (.cmd [0x30#8]) = .rejected .wrongLength := by decide
/-- 8-byte reports with renamed codes (93 U21): the port read, and a completion. -/
theorem test_decode_instance :
    decode { reportSize := 8, cmdI2cWriteRead := 0x62#8 } (.cmd [0x62#8, 0x20#8, 0x01#8, 0x02#8, 0x12#8, 0#8, 0#8, 0#8])
      = .ok (.i2cWriteRead 0x20#7 [0x12#8] 2#8) ∧
    decode { reportSize := 8, stComplete := 0x09#8 } (.rsp (some [0x30#8, 0x00#8, 0x09#8, 0#8, 0#8, 0#8, 0#8, 0#8]))
      = .ok (.rspStatusComplete [0#8, 0#8, 0#8, 0#8, 0#8]) := by decide
/-- Vectors E11, E12, E17, E18, E19, E20. -/
theorem test_classify :
    classify {} (rep [0x20, 0x01]) 0x20#8 = .busy ∧ classify {} (rep [0x20, 0x02]) 0x20#8 = .noAnswer ∧
    classify {} (rep [0x30, 0x00, 0x00]) 0x30#8 = .noAnswer ∧ classify {} (rep [0x30, 0x01, 0x02]) 0x30#8 = .noAnswer ∧
    classify {} (rep [0x30, 0x00, 0x02]) 0x22#8 = .noAnswer ∧
    classify {} (rep [0x31, 0x00, 0x00, 0x02, 0xEF, 0xFF]) 0x31#8
      = .data 2#8 ([0xEF#8, 0xFF#8] ++ List.replicate 58 0#8) := by decide
/-- The table's word for I2C_READ (match 0x21000000, target 0x20, length 2), and a response word. -/
theorem test_table_words :
    decodeTableWord 32 0x21200002 = some (.i2cRead 0x20#7 2#8) ∧
    decodeTableWord 32 0x30000300 = some (.rspStatusErrNack (List.replicate 61 0#8)) ∧
    decodeTableWord 16 0 = none := by decide
theorem test_step_runs_fetched_word :
    nextIf (step (State.reset.withFetchWord 32 0x31000002)) (fun t => decide (t.seq.sst = .sIdle)) = true := by decide

/-! ### The commands (CMD rows) -/

/-- P1 lines 3, 4. -/
theorem test_setSpeed :
    nextIf (exec (.setSpeed 100000#32) (flight .sConfig .bCmd (configureRequest 100000#32) [ans [0x10, 0x00]]))
      (fun t => decide (t.brg.bst = .bStat ∧ t.brg.k = 0 ∧ t.hid =
        [.sent (rep [0x10, 0x00, 0x04, 0x00, 0xA0, 0x86, 0x01, 0x00]) .ok, .received 1 (some (rep [0x10, 0x00]))]))
      = true := by decide
/-- B5: BUSY is not retried; in the start-up pass it is an InitError (R184). -/
theorem test_i2cWrite :
    nextIf (exec (.i2cWrite 0x20#7 [0x00, 0xFF, 0xFF]) (flight .sInitDir .bCmd writeW [ans [0x20, 0x01]]))
      (fun t => decide (t.brg.res = .busy ∧ t.brg.tries = 0#1 ∧ t.seq.sst = .sDead
        ∧ t.seq.err = ⟨.initError, .busy⟩)) = true := by decide
/-- R98, R110: no answer is retried. -/
theorem test_i2cRead :
    nextIf (exec (.i2cRead 0x20#7 2#8) (flight .sIdle .bCmd (readRequest 0x20#8 2) [silent]))
      (fun t => decide (t.brg.bst = .bCmd ∧ t.brg.tries = 1#1)) = true := by decide
/-- Q6. -/
theorem test_i2cWriteRead :
    nextIf (exec (.i2cWriteRead 0x20#7 [0x12#8] 2#8) (flight .sRead .bCmd readP [ioFail]))
      (fun t => decide (t.seq = { sst := .sOpen, rc := true, err := ⟨.ioError, .ioErr⟩ } ∧ t.brg.bst = .bClosed
        ∧ t.slt.snap.stale = true ∧ t.hid.getLast? = some .closed)) = true := by decide
/-- A report that is not the next one is not sent. -/
theorem test_i2cWriteRead_other :
    refusedBy (exec (.i2cWriteRead 0x21#7 [0x12#8] 2#8) (flight .sRead .bCmd readP [])) .notAdmitted = true := by
  decide
/-- B2: the fiftieth unfinished poll fails the attempt. -/
theorem test_getStatus :
    nextIf (exec .getStatus (polled 49 (flight .sInitDir .bStat writeW [ans [0x30, 0x00, 0x01]])))
      (fun t => decide (t.brg.bst = .bCmd ∧ t.brg.tries = 1#1 ∧ t.brg.k = 50)) = true := by decide
/-- B3: completion on the last permitted poll. -/
theorem test_getStatus_last :
    nextIf (exec .getStatus (polled 49 (flight .sInitDir .bStat writeW [ans [0x30, 0x00, 0x02]])))
      (fun t => decide (t.brg.res = .ok ∧ t.brg.k = 50 ∧ t.seq.sst = .sInitPu)) = true := by decide
/-- P3 lines 25 to 28. -/
theorem test_getData :
    nextIf (exec .getData
      { flight .sRead .bData readP [] with
        slt := { commit := { Six.fill .empty with s5 := .charging }, cand := { Six.fill .empty with s5 := .full }
                 cnt := { Six.fill 0#8 with s5 := 1#8 }, snap := ⟨{ Six.fill .empty with s5 := .charging }, 2001, true⟩ }
        world := { State.reset.world with
          handle := true, inp := { Inputs.quiet with now := 2003 }
          xchgs := [ans [0x31, 0x00, 0x00, 0x02, 0xFF, 0xF7]] } })
      (fun t => decide (t.port = 0xF7FF#16 ∧ t.slt.snap.packed 32 = 0x3E999249#51 ∧ t.seq.sst = .sIdle
        ∧ t.out = [.ev ⟨5, .charging, .full, 2003⟩, .nt ⟨5, { Six.fill .empty with s5 := .full }, 2003⟩])) = true := by
  decide

/-! ### The responses (RSP rows) -/

theorem test_rspAccepted :
    nextIf (exec (.rspAccepted 0x22#8 (List.replicate 62 0xEE#8)) (flight .sRead .bCmd readP []))
      (fun t => decide (t.brg.bst = .bStat)) = true := by decide
/-- Q4. -/
theorem test_rspBusy :
    nextIf (exec (.rspBusy 0x22#8 (List.replicate 62 0#8)) (flight .sRead .bCmd readP []))
      (fun t => decide (t.seq.sst = .sIdle ∧ t.slt.snap.stale = true ∧ t.seq.err = ⟨.busError, .busy⟩
        ∧ t.slt.commit = Six.fill .empty)) = true := by decide
theorem test_rspStatusInProgress :
    nextIf (exec (.rspStatusInProgress (List.replicate 61 0#8)) (polled 3 (flight .sRead .bStat readP [])))
      (fun t => decide (t.brg.bst = .bStat ∧ t.brg.k = 4)) = true := by decide
/-- P1 line 14. -/
theorem test_rspStatusComplete :
    nextIf (exec (.rspStatusComplete (List.replicate 61 0#8)) (flight .sInitPu .bStat (initPuRequest cfg0) []))
      (fun t => decide (t.seq.sst = .sIdle ∧ t.brg.bst = .bIdle ∧ t.seq.rc = false)) = true := by decide
/-- P5 lines 14, 15. -/
theorem test_rspStatusErrNack :
    nextIf (exec (.rspStatusErrNack (List.replicate 61 0#8)) (second (flight .sInitDir .bStat writeW [])))
      (fun t => decide (t.seq.sst = .sDead ∧ t.brg.bst = .bClosed ∧ t.brg.res = .nack
        ∧ t.seq.err = ⟨.initError, .nack⟩)) = true := by decide
/-- P3 line 16. -/
theorem test_rspStatusErrTimeout :
    nextIf (exec (.rspStatusErrTimeout (List.replicate 61 0#8)) (polled 1 (flight .sRead .bStat readP [])))
      (fun t => decide (t.brg.bst = .bCmd ∧ t.brg.tries = 1#1 ∧ t.brg.k = 2)) = true := by decide
/-- B7, Q5. -/
theorem test_rspData_mismatch :
    nextIf (exec (.rspData 0#8 3#8 ([1#8, 2#8, 3#8] ++ List.replicate 57 0#8)) (flight .sRead .bData readP []))
      (fun t => decide (t.brg.res = .lenMismatch ∧ t.brg.rd = State.reset.brg.rd ∧ t.seq.sst = .sIdle
        ∧ t.seq.err = ⟨.busError, .lenMismatch⟩)) = true := by decide
/-- B8. -/
theorem test_rspNoData :
    nextIf (exec (.rspNoData (List.replicate 62 0#8)) (flight .sRead .bData readP []))
      (fun t => decide (t.brg.res = .lenMismatch ∧ t.brg.tries = 0#1)) = true := by decide
/-- P3 line 18. -/
theorem test_rspNoAnswer :
    nextIf (exec (.rspNoAnswer none) (second (flight .sRead .bCmd readP [])))
      (fun t => decide (t.brg.res = .timeout ∧ t.seq.sst = .sIdle ∧ t.seq.err = ⟨.busTimeout, .timeout⟩)) = true := by
  decide
/-- B10: a response to another command is no answer. -/
theorem test_rspStatusComplete_in_command :
    nextIf (exec (.rspStatusComplete (List.replicate 61 0#8)) (flight .sInitDir .bCmd writeW []))
      (fun t => decide (t.brg.bst = .bCmd ∧ t.brg.tries = 1#1)) = true := by decide

/-! ### The driver requests (REQ rows) -/

/-- B23. -/
theorem test_configure :
    nextIf (exec (.configure 100000#32) (idle [ans [0x10, 0x00], ans [0x30, 0x00, 0x02]]))
      (fun t => decide (t.brg.res = .ok ∧ t.brg.k = 1 ∧ t.brg.bst = .bIdle ∧ t.hid.length = 4)) = true := by decide
/-- B15. -/
theorem test_write :
    nextIf (exec (.write 0x20#8 [0x00, 0xFF, 0xFF])
      (idle [ans [0x20, 0x00], ans [0x30, 0x00, 0x03], ans [0x20, 0x00], ans [0x30, 0x00, 0x04]]))
      (fun t => decide (t.brg.res = .timeout ∧ t.brg.tries = 1#1 ∧ t.brg.k = 1)) = true := by decide
/-- B17. -/
theorem test_write_badArg : refusedBy (exec (.write 0x20#8 []) (idle [])) .badArg = true := by decide
/-- B25. -/
theorem test_read :
    nextIf (exec (.read 0x20#8 2) (idle [ans [0x21, 0x00], ans [0x30, 0x00, 0x02], ans [0x31, 0x00, 0x00, 0x02, 0xEF, 0xFF]]))
      (fun t => decide (t.brg.res = .ok ∧ t.brg.rd.take 2 = [0xEF#8, 0xFF#8])) = true := by decide
/-- B25 on an instance with 8-byte reports and another code for I2C_READ (R5, 93 U21). -/
theorem test_read_instance :
    nextIf (exec (.read 0x20#8 2)
      { idle [⟨.ok, some [0x51#8, 0#8, 0#8, 0#8, 0#8, 0#8, 0#8, 0#8]⟩, ⟨.ok, some [0x30#8, 0#8, 2#8, 0#8, 0#8, 0#8, 0#8, 0#8]⟩,
          ⟨.ok, some [0x31#8, 0#8, 0#8, 2#8, 0xEF#8, 0xFF#8, 0#8, 0#8]⟩] with
        cfg := { reportSize := 8, cmdI2cRead := 0x51#8 } })
      (fun t => decide (t.brg.res = .ok ∧ t.brg.rd.take 2 = [0xEF#8, 0xFF#8] ∧
        t.hid.head? = some (.sent [0x51#8, 0x20#8, 0x00#8, 0x02#8, 0#8, 0#8, 0#8, 0#8] .ok))) = true := by decide
/-- B21. -/
theorem test_read_badArg : refusedBy (exec (.read 0x20#8 61) (idle [])) .badArg = true := by decide
/-- B9. -/
theorem test_writeRead :
    nextIf (exec (.writeRead 0x20#8 [0x12#8] 2)
      (idle [ans [0x22, 0x00], ans [0x30, 0x00, 0x02], silent, ans [0x22, 0x00], ans [0x30, 0x00, 0x02],
        ans [0x31, 0x00, 0x00, 0x02, 0xAA, 0x55]]))
      (fun t => decide (t.brg.res = .ok ∧ t.brg.rd.take 2 = [0xAA#8, 0x55#8] ∧ t.brg.tries = 1#1 ∧ t.brg.k = 1
        ∧ t.hid.length = 12)) = true := by decide

/-! ### The LED pairs (PAIR rows, X1) -/

theorem test_decodeEmpty :
    nextIf (exec .decodeEmpty State.reset) (fun t => decide (t.scratch.dec = .empty)) = true := by decide
theorem test_decodeCharging :
    nextIf (exec .decodeCharging State.reset) (fun t => decide (t.scratch.dec = .charging)) = true := by decide
theorem test_decodeFull :
    nextIf (exec .decodeFull State.reset) (fun t => decide (t.scratch.dec = .full)) = true := by decide
theorem test_decodeError :
    nextIf (exec .decodeError State.reset) (fun t => decide (t.scratch.dec = .error)) = true := by decide
/-- P-8: the six slots of 0xF6E4. -/
theorem test_decode_port :
    slotOrder.map (decodedSlot { State.reset with port := 0xF6E4#16 })
      = [.error, .full, .charging, .empty, .charging, .full] := by decide

/-! ### The pseudo-operations (PSEUDO rows) -/

/-- P1 lines 7 to 10. -/
theorem test_initDir :
    nextIf (exec .initDir (idle [ans [0x20, 0x00], ans [0x30, 0x00, 0x02]]))
      (fun t => decide (t.brg.res = .ok ∧ t.hid.head? =
        some (.sent (rep [0x20, 0x20, 0x03, 0x00, 0x00, 0xFF, 0xFF]) .ok))) = true := by decide
/-- P1 lines 11 to 14. -/
theorem test_initPu :
    nextIf (exec .initPu (idle [ans [0x20, 0x00], ans [0x30, 0x00, 0x02]]))
      (fun t => decide (t.brg.res = .ok ∧ t.hid.head? =
        some (.sent (rep [0x20, 0x20, 0x03, 0x00, 0x0C, 0xFF, 0xFF]) .ok))) = true := by decide
/-- `S_INIT_DIR` with the bridge idle, as `configure` leaves it. -/
def atInitDir (xs : List XchgAnswer) : State := { idle xs with seq := { State.reset.seq with sst := .sInitDir } }
/-- P5 lines 7 to 15. -/
theorem test_initExpander :
    nextIf (exec .initExpander
      (atInitDir [ans [0x20, 0x00], ans [0x30, 0x00, 0x03], ans [0x20, 0x00], ans [0x30, 0x00, 0x03]]))
      (fun t => decide (t.seq.sst = .sDead ∧ t.brg.bst = .bClosed ∧ t.seq.err = ⟨.initError, .nack⟩
        ∧ t.hid.length = 9)) = true := by decide
/-- The byte order check of part 4: FF F7 gives 0xF7FF. -/
theorem test_readPort :
    nextIf (exec .readPort
      (idle [ans [0x22, 0x00], ans [0x30, 0x00, 0x02], ans [0x31, 0x00, 0x00, 0x02, 0xFF, 0xF7]]))
      (fun t => decide (t.port = 0xF7FF#16 ∧ t.slt = (idle []).slt)) = true := by decide
/-- P2 lines 1 to 8. -/
theorem test_poll :
    nextIf (exec .poll
      { idle [ans [0x22, 0x00], ans [0x30, 0x00, 0x02], ans [0x31, 0x00, 0x00, 0x02, 0xEF, 0xFF]] with
        world := { (idle [ans [0x22, 0x00], ans [0x30, 0x00, 0x02], ans [0x31, 0x00, 0x00, 0x02, 0xEF, 0xFF]]).world with
          inp := { Inputs.quiet with now := 1002 } } })
      (fun t => decide (t.slt.cand.s2 = .charging ∧ t.slt.cnt.s2 = 1#8 ∧ t.slt.commit = Six.fill .empty
        ∧ t.slt.snap.ts = 1002 ∧ t.seq.sst = .sIdle)) = true := by decide
/-- P3 lines 10 to 18: a failed cycle keeps the slots and marks the snapshot stale. -/
theorem test_poll_timeout :
    nextIf (exec .poll (idle [ans [0x22, 0x00], ans [0x30, 0x00, 0x01], ans [0x30, 0x00, 0x04], silent]))
      (fun t => decide (t.slt = { (idle []).slt with snap := { (idle []).slt.snap with stale := true } }
        ∧ t.seq.err = ⟨.busTimeout, .timeout⟩ ∧ t.seq.sst = .sIdle ∧ t.brg.k = 2)) = true := by decide
/-- The answers of P1 lines 2 to 14. -/
def bootAnswers : List XchgAnswer :=
  [ans [0x10, 0x00], ans [0x30, 0x00, 0x02], ans [0x20, 0x00], ans [0x30, 0x00, 0x02], ans [0x20, 0x00],
    ans [0x30, 0x00, 0x02]]
/-- Reset, with this answer to the open. -/
def atOpen (o : OpenAnswer) (xs : List XchgAnswer) : State :=
  { State.reset with world := { State.reset.world with opens := [o], xchgs := xs } }
/-- P1 lines 2 to 14. -/
theorem test_boot :
    nextIf (exec .boot (atOpen .ok bootAnswers))
      (fun t => decide (t.seq = { sst := .sIdle, rc := false, err := ⟨.noErr, .ok⟩ } ∧ t.brg.bst = .bIdle
        ∧ t.slt.snap.packed 32 = 0x40000#51 ∧ t.hid.length = 13)) = true := by decide

/-! ### The sequencer's operations (SEQ rows) -/

/-- Q1. -/
theorem test_open :
    nextIf (exec .openBridge (atOpen .deviceNotFound []))
      (fun t => decide (t.seq.sst = .sDead ∧ t.brg.bst = .bClosed ∧ t.seq.err = ⟨.deviceNotFound, .ok⟩
        ∧ t.slt.snap.stale = true ∧ t.hid = [.opened .deviceNotFound])) = true := by decide
/-- P4 line 4. -/
theorem test_reconnect :
    nextIf (exec .reconnect (flight .sRead .bCmd readP []))
      (fun t => decide (t.seq.sst = .sOpen ∧ t.seq.rc = true ∧ t.brg.bst = .bClosed ∧ t.hid = [.closed])) = true := by
  decide
/-- P6. -/
theorem test_stop :
    nextIf (exec .stop (idle []))
      (fun t => decide (t.seq.sst = .sOff ∧ t.brg.bst = .bClosed ∧ t.slt = (idle []).slt ∧ t.hid = [.closed])) = true := by
  decide
/-- Q10: stop and tick together. -/
theorem test_stop_wins :
    nextIf (step (withLine { Inputs.quiet with stop := true, tick := true } (idle [])))
      (fun t => decide (t.seq.sst = .sOff)) = true := by decide
/-- Q12. -/
theorem test_reset :
    nextIf (exec .reset (flight .sRead .bStat readP []))
      (fun t => decide (t.seq.sst = .sOpen ∧ t.brg.bst = .bClosed ∧ t.port = 0xFFFF#16
        ∧ t.slt.snap.packed 32 = 0x40000#51 ∧ t.world.handle = false)) = true := by decide
/-- Q14: an illegal instance is found at the operation, without a report. -/
theorem test_illegal_address :
    nextIf (step (withLine Inputs.quiet { atInitDir [] with cfg := { expAddr := 0x80#8 } }))
      (fun t => decide (t.seq.sst = .sDead ∧ t.seq.err = ⟨.invalidArg, .badArg⟩ ∧ t.hid = [.closed])) = true := by decide

/-! ### The slot engine (SLOT rows) and the query -/

/-- S5, cycles 3 and 4. -/
theorem test_debounce :
    debounceOne 2#8 .charging .empty .empty 0#8 = ⟨.empty, .charging, 1#8, none⟩ ∧
    debounceOne 2#8 .charging .empty .charging 1#8 = ⟨.charging, .charging, 0#8, some (.empty, .charging)⟩ := by decide
/-- S8: a third state restarts the count. -/
theorem test_debounce_restart :
    nextIf (exec (.debounce 4 .error) { idle [] with
        cfg := { debounceN := 3#8 }
        slt := { (idle []).slt with cand := { Six.fill .empty with s4 := .full }, cnt := { Six.fill 0#8 with s4 := 1#8 } } })
      (fun t => decide (t.slt.cand.s4 = .error ∧ t.slt.cnt.s4 = 1#8 ∧ t.slt.commit = Six.fill .empty)) = true := by decide
/-- V-SNAP1. -/
theorem test_publish :
    nextIf (exec (.publish 1002) { idle [] with slt := { (idle []).slt with commit := { Six.fill .empty with s2 := .charging } } })
      (fun t => decide (t.slt.snap.packed 32 = 0x1F509289#51)) = true := by decide
/-- A time operand has `TIME_W` bits (R11). -/
theorem test_publish_time :
    nextIf (exec (.publish 0x1FE) { idle [] with cfg := { timeW := 8 } }) (fun t => decide (t.slt.snap.ts = 0xFE)) = true := by
  decide
/-- Part 5, two slots FULL in one cycle. -/
theorem test_dispatch :
    nextIf (exec (.dispatch 4001) { idle [] with
        slt := { (idle []).slt with commit := { Six.fill .empty with s0 := .full, s5 := .full } }
        scratch := ⟨.full, { Six.fill none with s0 := some (.empty, .full), s5 := some (.empty, .full) }⟩ })
      (fun t => decide (t.out =
        [.ev ⟨0, .empty, .full, 4001⟩, .nt ⟨0, { Six.fill .empty with s0 := .full, s5 := .full }, 4001⟩,
         .ev ⟨5, .empty, .full, 4001⟩, .nt ⟨5, { Six.fill .empty with s0 := .full, s5 := .full }, 4001⟩]
        ∧ t.scratch.ev = Six.fill none)) = true := by decide
/-- R164: notification disabled. -/
theorem test_notify_disabled :
    nextIf (exec (.notify 0 .empty .full 9) { idle [] with cfg := { notifyEn := false } })
      (fun t => decide (t.out = [])) = true := by decide
theorem test_notify :
    nextIf (exec (.notify 0 .empty .full 9) (idle []))
      (fun t => decide (t.nt = [⟨0, Six.fill .empty, 9⟩] ∧ t.ev = [])) = true := by decide
/-- Q13. -/
theorem test_getSnapshot :
    nextIf (exec .getSnapshot State.reset)
      (fun t => decide (t.world.replies = [⟨⟨Six.fill .unknown, 0, true⟩, ⟨.noErr, .ok⟩, ⟨.sOpen, false, .bClosed⟩⟩]))
      = true := by decide
/-- V-SNAP4. -/
theorem test_packed :
    Snapshot.packed 32 ⟨⟨.error, .full, .charging, .empty, .unknown, .unknown⟩, 0xFFFFFFFF, true⟩
      = 0x7FFFFFFFC029C#51 := by decide

/-! ### Witnesses: a concrete state and operands that meet the hypotheses of each statement that has any -/

/-- The word of INIT_DIR and the state about to send it. -/
def wInstr : Instr := .i2cWrite 0x20#7 [0x00#8, 0xFF#8, 0xFF#8]
def wReport : Report := rep [0x20, 0x20, 0x03, 0x00, 0x00, 0xFF, 0xFF]
def wSending (xs : List XchgAnswer) : State := flight .sInitDir .bCmd writeW xs

theorem witness_AcceptedCommandStartsPolling :
    (wSending []).cfg.legal = true ∧ startsTransfer wInstr = true ∧ sends wInstr wReport (wSending [ans [0x20, 0x00]]) ∧
    (List.replicate 62 0#8).length + 2 = cfg0.reportSize ∧
    (wSending [ans [0x20, 0x00]]).world.xchgAnswer
      = ⟨.ok, some (cmdCode cfg0 (wSending []).brg.op :: cfg0.resOk :: List.replicate 62 0#8)⟩ := by
  unfold sends; decide

theorem witness_BusyOrUnansweredCommandFailsAttempt :
    (wSending []).cfg.legal = true ∧ startsTransfer wInstr = true ∧
    (∀ xs ∈ [[ans [0x20, 0x01]], [silent], [ans [0x30, 0x00, 0x02]], [ans [0x20, 0x02]]],
      encode {} wInstr = some (.cmd wReport) ∧ nextReport cfg0 (wSending xs).brg = some wReport) ∧
    (wSending [ans [0x20, 0x01]]).world.xchgAnswer
      = ⟨.ok, some (cmdCode cfg0 (wSending []).brg.op :: cfg0.resBusy :: List.replicate 62 0#8)⟩ ∧
    (wSending [silent]).world.xchgAnswer = ⟨.ok, none⟩ ∧
    (wSending [ans [0x30, 0x00, 0x02]]).world.xchgAnswer
      = ⟨.ok, some (0x30#8 :: 0x00#8 :: (rep [0x30, 0x00, 0x02]).drop 2)⟩ ∧
    (0x30#8 : Byte) ≠ cmdCode cfg0 (wSending []).brg.op ∧
    (wSending [ans [0x20, 0x02]]).world.xchgAnswer = ⟨.ok, some (0x20#8 :: 0x02#8 :: List.replicate 62 0#8)⟩ ∧
    (0x02#8 : Byte) ≠ cfg0.resOk ∧ (0x02#8 : Byte) ≠ cfg0.resBusy := by decide

theorem witness_FailedSendEndsOperation :
    sends wInstr wReport (wSending [ioFail]) ∧ (wSending [ioFail]).world.xchgAnswer.send = .ioError ∧
    sends .getStatus (statusReport cfg0) (flight .sRead .bStat readP [⟨.invalidReportSize, none⟩]) ∧
    (flight .sRead .bStat readP [⟨.invalidReportSize, none⟩]).world.xchgAnswer.send = .invalidReportSize ∧
    sends .getData (dataReport cfg0) (flight .sRead .bData readP [ioFail]) := by
  unfold sends; decide

/-- In `B_STAT` with `n` polls made. -/
def wPolling (n : Nat) (xs : List XchgAnswer) : State := polled n (flight .sRead .bStat readP xs)

theorem witness_UnfinishedPollCountsThenTimesOut :
    (wPolling 48 []).cfg.legal = true ∧ (wPolling 48 [silent]).brg.bst = .bStat ∧ (wPolling 48 [silent]).brg.k < (wPolling 48 [silent]).cfg.statusPollMax ∧
    (wPolling 48 [silent]).world.xchgAnswer = ⟨.ok, none⟩ ∧
    (wPolling 48 [ans [0x22, 0x00]]).world.xchgAnswer = ⟨.ok, some (rep [0x22, 0x00])⟩ ∧
    classify {} (rep [0x22, 0x00]) cfg0.cmdGetStatus = .noAnswer ∧
    (wPolling 48 [silent]).brg.k + 1 < (wPolling 48 [silent]).cfg.statusPollMax ∧
    (wPolling 49 []).brg.k < (wPolling 49 []).cfg.statusPollMax ∧
    (wPolling 49 []).brg.k + 1 = (wPolling 49 []).cfg.statusPollMax ∧
    (wPolling 49 [ans [0x30, 0x00, 0x01]]).world.xchgAnswer
      = ⟨.ok, some (cfg0.cmdGetStatus :: cfg0.resOk :: cfg0.stInProgress :: List.replicate 61 0#8)⟩ := by decide

theorem witness_CompletionFetchesDataOrFinishes :
    (wPolling 49 []).cfg.legal = true ∧ (wPolling 49 []).brg.bst = .bStat ∧ (wPolling 49 []).brg.k < (wPolling 49 []).cfg.statusPollMax ∧
    (wPolling 49 [ans [0x30, 0x00, 0x02]]).world.xchgAnswer
      = ⟨.ok, some (cfg0.cmdGetStatus :: cfg0.resOk :: cfg0.stComplete :: List.replicate 61 0#8)⟩ ∧
    hasRead (wPolling 49 []).brg.op = true ∧ hasRead (flight .sInitDir .bStat writeW []).brg.op = false ∧
    (flight .sInitDir .bStat writeW [ans [0x30, 0x00, 0x02]]).brg.k < cfg0.statusPollMax ∧
    (flight .sInitDir .bStat writeW [ans [0x30, 0x00, 0x02]]).world.xchgAnswer
      = ⟨.ok, some (cfg0.cmdGetStatus :: cfg0.resOk :: cfg0.stComplete :: List.replicate 61 0#8)⟩ := by decide

theorem witness_ErrorStatusFailsAttempt :
    (wPolling 0 []).cfg.legal = true ∧ (wPolling 0 []).brg.bst = .bStat ∧ (wPolling 0 []).brg.k < (wPolling 0 []).cfg.statusPollMax ∧
    (wPolling 0 [ans [0x30, 0x00, 0x03]]).world.xchgAnswer
      = ⟨.ok, some (cfg0.cmdGetStatus :: cfg0.resOk :: cfg0.stErrNack :: List.replicate 61 0#8)⟩ ∧
    (wPolling 0 [ans [0x30, 0x00, 0x04]]).world.xchgAnswer
      = ⟨.ok, some (cfg0.cmdGetStatus :: cfg0.resOk :: cfg0.stErrTimeout :: List.replicate 61 0#8)⟩ := by decide

/-- In `B_DATA`, two bytes expected. -/
def wFetching (xs : List XchgAnswer) : State := flight .sRead .bData readP xs

theorem witness_DataFetchCopiesOnlyMatchingCount :
    (wFetching []).cfg.legal = true ∧ (wFetching []).brg.bst = .bData ∧ (wFetching []).brg.rl = 2 ∧
    (wFetching [ans [0x31, 0x00, 0x00, 0x02, 0xEF, 0xFF]]).world.xchgAnswer = ⟨.ok, some (cfg0.cmdGetData
      :: cfg0.resOk :: 0#8 :: 2#8 :: ([0xEF#8, 0xFF#8] ++ List.replicate 58 0#8))⟩ ∧
    (wFetching [ans [0x31, 0x00, 0x00, 0x03]]).world.xchgAnswer
      = ⟨.ok, some (cfg0.cmdGetData :: cfg0.resOk :: 0#8 :: 3#8 :: List.replicate 60 0#8)⟩ ∧
    (wFetching [ans [0x31, 0x02]]).world.xchgAnswer
      = ⟨.ok, some (cfg0.cmdGetData :: cfg0.resNoData :: List.replicate 62 0#8)⟩ ∧
    (wFetching [ans [0x30, 0x00, 0x02]]).world.xchgAnswer = ⟨.ok, some (rep [0x30, 0x00, 0x02])⟩ ∧
    classify {} (rep [0x30, 0x00, 0x02]) cfg0.cmdGetData = .noAnswer ∧
    (wFetching [silent]).world.xchgAnswer = ⟨.ok, none⟩ ∧ (wFetching [ioFail]).world.xchgAnswer.send = .ioError ∧
    (wFetching [⟨.invalidReportSize, none⟩]).world.xchgAnswer.send = .invalidReportSize := by decide

theorem witness_FailedAttemptRetriesOnceThenEnds :
    retryable cfg0.retryOn .nack = true ∧ (wFetching []).brg.tries = 0#1 ∧
    retryable cfg0.retryOn .busy = false ∧ (second (wFetching [])).brg.tries = 1#1 := by decide

theorem witness_OnlyTheNextReportIsSent :
    encode {} .getData = some (.cmd (dataReport cfg0)) ∧ nextReport cfg0 (wSending []).brg ≠ some (dataReport cfg0) := by decide

theorem witness_ResponsesToACommand :
    (wSending []).cfg.legal = true ∧ (wSending []).brg.bst = .bCmd ∧ (List.replicate 62 0xEE#8).length + 2 = cfg0.reportSize ∧
    Instr.wellFormed {} (.rspNoAnswer none) = true ∧
    Instr.wellFormed {} (.rspNoAnswer (some (rep [0x20, 0x02]))) = true := by decide

theorem witness_ResponsesToAStatusRequest :
    (wPolling 49 []).cfg.legal = true ∧ (wPolling 49 []).brg.bst = .bStat ∧ (wPolling 49 []).brg.k < (wPolling 49 []).cfg.statusPollMax ∧
    (List.replicate 61 0#8).length + 3 = cfg0.reportSize ∧ Instr.wellFormed {} (.rspNoAnswer (some (rep [0x30, 0x00, 0x05]))) = true := by
  decide

theorem witness_ResponsesToADataRequest :
    (wFetching []).cfg.legal = true ∧ (wFetching []).brg.bst = .bData ∧ (2#8 : Byte).toNat = (wFetching []).brg.rl ∧
    (3#8 : Byte).toNat ≠ (wFetching []).brg.rl ∧ (List.replicate 60 0#8).length + 4 = cfg0.reportSize ∧
    Instr.wellFormed {} (.rspNoAnswer (some (rep [0x31, 0x01]))) = true := by decide

theorem witness_ResponseToAnotherCommandIsNoAnswer :
    rep [0x30, 0x00, 0x02] = 0x30#8 :: (rep [0x30, 0x00, 0x02]).drop 1 ∧ (0x30#8 : Byte) ≠ 0x22#8 ∧
    encode {} (.rspNoAnswer none) = some (.rsp none) ∧ exchangeNext (idle []) = false := by decide

/-- The longest admitted write, and the longest read from the highest address. -/
theorem witness_RequestsAgreeWithBigStep :
    requestOf (.write 0x7F#8 (List.replicate 60 7#8)) = some (writeRequest 0x7F#8 (List.replicate 60 7#8)) ∧
    argsOk cfg0 (writeRequest 0x7F#8 (List.replicate 60 7#8)) = true ∧
    requestOf (.read 0x00#8 60) = some (readRequest 0x00#8 60) ∧ argsOk cfg0 (readRequest 0x00#8 60) = true ∧
    (idle []).brg.bst = .bIdle ∧ 1 ≤ (idle []).cfg.statusPollMax ∧ 4 ≤ (idle []).cfg.maxPayload ∧
    argsOk { reportSize := 8 } (writeRequest 0x20#8 [1#8, 2#8, 3#8, 4#8]) = true ∧
    4 ≤ Config.maxPayload { reportSize := 8 } := by decide

theorem witness_OperationExchangesAreBounded :
    requestOf (.writeRead 0x20#8 [0x12#8] 2) = some (writeReadRequest 0x20#8 [0x12#8] 2) ∧
    argsOk cfg0 (writeReadRequest 0x20#8 [0x12#8] 2) = true ∧ (idle []).brg.bst = .bIdle ∧
    1 ≤ (idle []).cfg.statusPollMax := by decide

/-- `bst` at its two neighbours of `B_IDLE`; each bound met and just missed. -/
theorem witness_RequestsOutOfBoundsAreRefused :
    requestOf (.configure 400000#32) = some (configureRequest 400000#32) ∧ (wSending []).brg.bst ≠ .bIdle ∧
    State.reset.brg.bst ≠ .bIdle ∧ (idle []).brg.bst = .bIdle ∧
    refusedBy (exec (.write 0x20#8 (List.replicate 61 7#8)) (idle [])) .badArg = true ∧
    refusedBy (exec (.write 0x20#8 (List.replicate 60 7#8)) (idle [ioFail])) .badArg = false ∧
    refusedBy (exec (.read 0x20#8 0) (idle [])) .badArg = true ∧
    refusedBy (exec (.read 0x7F#8 1) (idle [ioFail])) .badArg = false ∧
    refusedBy (exec (.writeRead 0x80#8 [1#8] 1) (idle [])) .badArg = true ∧
    refusedBy (exec (.writeRead 0x7F#8 [1#8] 60) (idle [ioFail])) .badArg = false := by decide

theorem witness_StartLoadsTheRequest :
    4 ≤ cfg0.maxPayload ∧ argsOk cfg0 (configureRequest 100000#32) = true ∧
    argsOk cfg0 (writeReadRequest 0x7F#8 (List.replicate 60 7#8) 60) = true := by decide

theorem witness_InitWritesExpandToDriverWrites :
    (idle []).brg.bst = .bIdle ∧ (idle []).cfg.expAddr.toNat ≤ 0x7F ∧ 4 ≤ (idle []).cfg.maxPayload := by decide

theorem witness_ReadPortCapturesLowByteFirst :
    (idle []).brg.bst = .bIdle ∧ (idle []).cfg.legal = true ∧
    (bigStepOp cfg0 ⟨.writeRead, cfg0.expAddr, [cfg0.regPort], 2⟩
      (idle [ans [0x22, 0x00], ans [0x30, 0x00, 0x02], ans [0x31, 0x00, 0x00, 0x02, 0xEF, 0xFF]]).world).1 = .ok ∧
    (bigStepOp cfg0 ⟨.writeRead, cfg0.expAddr, [cfg0.regPort], 2⟩ (idle [ans [0x22, 0x01]]).world).1 = .busy := by decide

theorem witness_InitExpanderIsTheTwoWritesInOrder :
    (atInitDir []).seq.sst = .sInitDir ∧ (atInitDir []).brg.bst = .bIdle ∧ (atInitDir []).cfg.legal = true ∧
    nextIf (exec .initDir (atInitDir [ans [0x20, 0x00], ans [0x30, 0x00, 0x02]])) (fun t => decide (t.brg.res = .ok))
      = true ∧
    nextIf (exec .initDir (atInitDir [ans [0x20, 0x01]])) (fun t => decide (t.brg.res = .busy)) = true := by decide

/-- Every answer of the open, every outcome of the pass that ENV can bring about, and a fatal error in the reconnect pass. -/
theorem witness_BootEndsIdleReopenOrDead :
    (atOpen .ok bootAnswers).seq.sst = .sOpen ∧ (atOpen .ok bootAnswers).brg.bst = .bClosed ∧
    (atOpen .ok bootAnswers).cfg.legal = true ∧ (atOpen .deviceNotFound []).world.openAnswer = .deviceNotFound ∧
    (atOpen .ok bootAnswers).world.openAnswer = .ok ∧
    [bootAnswers, [silent, silent], [ans [0x10, 0x00], ans [0x30, 0x00, 0x03], ans [0x10, 0x00], ans [0x30, 0x00, 0x03]],
      bootAnswers.take 2 ++ [ans [0x20, 0x01]], bootAnswers.take 4 ++ [ioFail], [⟨.invalidReportSize, none⟩]].map
        (fun xs => (bigStepPass cfg0 { (atOpen .ok xs).world.afterOpen with handle := true }).1)
      = [.ok, .timeout, .nack, .busy, .ioErr, .badSize] ∧
    (atOpen .ok [ioFail]).seq.rc = false ∧
    { (atOpen .ok [ioFail]) with seq := ⟨.sOpen, true, ⟨.ioError, .ioErr⟩⟩ }.seq.rc = true := by decide

theorem witness_PollCycleByOutcome :
    (idle []).seq.sst = .sIdle ∧ (idle []).brg.bst = .bIdle ∧ (idle []).seq.rc = false ∧ (idle []).cfg.legal = true ∧
    [[ans [0x22, 0x00], ans [0x30, 0x00, 0x02], ans [0x31, 0x00, 0x00, 0x02, 0xEF, 0xFF]], [silent, silent],
      [ans [0x22, 0x00], ans [0x30, 0x00, 0x03], ans [0x22, 0x00], ans [0x30, 0x00, 0x03]], [ans [0x22, 0x01]],
      [ans [0x22, 0x00], ans [0x30, 0x00, 0x02], ans [0x31, 0x00, 0x00, 0x03]], [ioFail],
      [⟨.invalidReportSize, none⟩]].map (fun xs => (bigStepOp cfg0 readP (idle xs).world).1)
      = [.ok, .timeout, .nack, .busy, .lenMismatch, .ioErr, .badSize] := by decide

theorem witness_TickAndStopOutsideIdleAreDropped :
    (wSending []).seq.sst ≠ .sIdle ∧ State.reset.seq.sst ≠ .sIdle := by decide

theorem witness_OpenBeginsThePassOrIsFatal :
    State.reset.seq.sst = .sOpen ∧ State.reset.brg.bst = .bClosed ∧ (atOpen .ok []).world.openAnswer = .ok ∧
    (atOpen .deviceNotFound []).world.openAnswer = .deviceNotFound := by decide

theorem witness_ReconnectOnceThenDead :
    (wFetching []).seq.sst = .sRead ∧ (wFetching []).brg.bst ≠ .bClosed ∧ (wFetching []).seq.rc = false ∧
    { (flight .sConfig .bCmd (configureRequest 100000#32) []) with seq := ⟨.sConfig, true, ⟨.ioError, .ioErr⟩⟩ }.brg.bst
      ≠ .bClosed := by decide

theorem witness_StopClosesAndTurnsOff : (idle []).seq.sst = .sIdle ∧ (idle []).brg.bst = .bIdle := by decide

theorem witness_ResetValues :
    (wFetching []).world.inp.debounceN ≠ 0#8 ∧ (wFetching []).brg.bst ≠ .bClosed := by decide

theorem witness_RaisingAnError :
    (raise .busTimeout .timeout (wFetching [])).seq.sst = .sIdle ∧
    (raise .initError .nack (wSending [])).seq.sst = .sDead ∧
    (raise .ioError .ioErr (wFetching [])).seq.sst = .sOpen := by decide

theorem witness_DebounceSameStateDropsCandidate : SlotState.empty = (idle []).slt.commit.get 5 := by decide

/-- A new candidate with `DEBOUNCE_N` = 2 (count 1 is kept), and the same with `DEBOUNCE_N` = 1 (committed). -/
theorem witness_DebounceCountsAndCommits :
    SlotState.full ≠ (idle []).slt.commit.get 0 ∧ ((idle []).slt.cnt.get 0).toNat < 255 ∧
    1 = (if SlotState.full = (idle []).slt.cand.get 0 ∧ 0 < ((idle []).slt.cnt.get 0).toNat
      then ((idle []).slt.cnt.get 0).toNat + 1 else 1) ∧
    1 < (idle []).cfg.debounceN.toNat ∧ { idle [] with cfg := { debounceN := 1#8 } }.cfg.debounceN.toNat ≤ 1 := by decide

theorem witness_DebounceCommitsAfterExactlyN :
    1 ≤ (255#8).toNat ∧ SlotState.full ≠ SlotState.empty ∧ (0#8 = 0#8 ∨ SlotState.empty ≠ SlotState.full) ∧
    254 < (255#8).toNat ∧ (255#8).toNat ≤ 255 ∧ 1 ≤ (1#8).toNat := by decide

theorem witness_DebounceLeavesOtherSlots : (0 : Fin 6) ≠ 5 := by decide

theorem witness_NotifyOnlyIntoFull :
    ((idle []).cfg.notifyEn = true ∧ SlotState.full = .full) ∧ SlotState.error ≠ .full ∧
    { idle [] with cfg := { notifyEn := false } }.cfg.notifyEn = false := by decide

theorem witness_IdenticalSnapshotEmitsNothing :
    ∀ i, decodedSlot { idle [] with port := 0x0FFF#16 } i = { idle [] with port := 0x0FFF#16 }.slt.commit.get i := by
  decide

/-- Two port values that differ in the four pins no slot selects. -/
theorem witness_UnselectedPinsAreIgnored :
    ∀ i : Fin 6, (0x0FFF#16).getLsbD (cfg0.pinChg.get i).val = State.reset.port.getLsbD (cfg0.pinChg.get i).val ∧
      (0x0FFF#16).getLsbD (cfg0.pinFull.get i).val = State.reset.port.getLsbD (cfg0.pinFull.get i).val := by decide

theorem witness_StepRunsTheDecodedCommand :
    (beginStep (withLine Inputs.quiet (wSending []))).world.inp.rst = false ∧
    (beginStep (withLine Inputs.quiet (wSending []))).seq.sst ≠ .sOpen ∧
    (beginStep (withLine Inputs.quiet (wSending []))).seq.sst ≠ .sDead ∧
    (beginStep (withLine Inputs.quiet (wSending []))).seq.sst ≠ .sOff ∧
    nextReport (wSending []).cfg (wSending []).brg = some wReport ∧ decode {} (.cmd wReport) = .ok wInstr := by decide

theorem witness_StepHonoursInputsByPriority :
    (beginStep (withLine { Inputs.quiet with rst := true } (idle []))).world.inp.rst = true ∧
    (beginStep (withLine Inputs.quiet (idle []))).world.inp.rst = false ∧
    (beginStep (withLine { Inputs.quiet with stop := true, tick := true } (idle []))).world.inp.stop = true ∧
    (beginStep (withLine { Inputs.quiet with tick := true } (idle []))).world.inp.tick = true ∧
    (idle []).seq.sst = .sIdle ∧ (idle []).brg.bst = .bIdle ∧ State.reset.seq.sst = .sOpen := by decide

theorem witness_StartStepsLoadTheOwnRequest :
    (withLine Inputs.quiet (atInitDir [])).cfg.legal = true ∧ (atInitDir []).brg.bst = .bIdle ∧
    inPass (atInitDir []) = true ∧ (beginStep (withLine Inputs.quiet (atInitDir []))).world.inp.rst = false ∧
    (idle []).seq.sst = .sIdle := by decide

theorem witness_BeginningAStepChangesNoRegister :
    (beginStep (withLine { Inputs.quiet with query := true } (wFetching []))).world.inp.query = true ∧
    (beginStep (withLine Inputs.quiet (wFetching []))).world.inp.query = false := by decide

/-- `S_IDLE` is sound. -/
theorem idle_sound : (idle []).Inv := by constructor <;> decide

/-- A poll about to fetch its data, answered 0xFFEF; no input in the next step. -/
def wLastExchange : State :=
  withLine { Inputs.quiet with now := 1002 } (wFetching [ans [0x31, 0x00, 0x00, 0x02, 0xEF, 0xFF]])

theorem wLastExchange_sound : wLastExchange.Inv := by constructor <;> decide

/-- Hypotheses of StepKeepsInvariant, SequencerFollowsItsTable, OnlySuccessfulPollsChangeSlots and TracesOnlyGrow: a sound state
in the middle of an operation, whose step commits a new candidate. -/
theorem witness_StepKeepsInvariant :
    wLastExchange.Inv ∧ (beginStep wLastExchange).world.inp.rst = false ∧ (∃ t, step wLastExchange = .next t) ∧
    nextIf (step wLastExchange) (fun t => decide (t.slt.cand.s2 = .charging ∧ t.seq.sst = .sIdle)) = true :=
  ⟨wLastExchange_sound, by decide, ⟨_, rfl⟩, by decide⟩

theorem witness_SequencerFollowsItsTable :
    wLastExchange.Inv ∧ (beginStep wLastExchange).world.inp.rst = false ∧ ∃ t, step wLastExchange = .next t :=
  ⟨wLastExchange_sound, by decide, ⟨_, rfl⟩⟩

theorem witness_OnlySuccessfulPollsChangeSlots :
    wLastExchange.Inv ∧ (beginStep wLastExchange).world.inp.rst = false ∧ ∃ t, step wLastExchange = .next t :=
  ⟨wLastExchange_sound, by decide, ⟨_, rfl⟩⟩

theorem witness_TracesOnlyGrow :
    wLastExchange.Inv ∧ (beginStep wLastExchange).world.inp.rst = false ∧ ∃ t, step wLastExchange = .next t :=
  ⟨wLastExchange_sound, by decide, ⟨_, rfl⟩⟩

theorem witness_UnknownIsNeverReentered :
    wLastExchange.Inv ∧ (beginStep wLastExchange).world.inp.rst = false ∧ (∃ t, step wLastExchange = .next t) ∧
    wLastExchange.slt.commit.get 2 ≠ .unknown :=
  ⟨wLastExchange_sound, by decide, ⟨_, rfl⟩, by decide⟩

/-- A reset input with a legal `DEBOUNCE_N`. -/
def wReset : State := withLine { Inputs.quiet with rst := true } (idle [])

theorem witness_SoundStateAlwaysSteps :
    wReset.Inv ∧ (beginStep wReset).world.inp.rst = true ∧ (beginStep wReset).world.inp.debounceN ≠ 0#8 :=
  ⟨by constructor <;> decide, by decide, by decide⟩

/-- An idle block whose next input line raises a tick at time 1002. -/
def wPoll : State :=
  { idle [ans [0x22, 0x01]] with
    world := { (idle [ans [0x22, 0x01]]).world with
      inp := { Inputs.quiet with now := 1002 }
      lines := { Inputs.quiet with tick := true, now := 1002 }
        :: List.replicate (opFuel cfg0) { Inputs.quiet with now := 1002 } } }

theorem witness_PollIsARunOfSteps :
    wPoll.Inv ∧ wPoll.seq.sst = .sIdle ∧ wPoll.world.inp.now = 1002 ∧
    wPoll.world.lines = { Inputs.quiet with tick := true, now := 1002 }
      :: List.replicate (opFuel wPoll.cfg) { Inputs.quiet with now := 1002 } :=
  ⟨by constructor <;> decide, by decide, by decide, rfl⟩

/-- Reset with quiet input lines for one start-up pass. -/
def wBoot : State :=
  { State.reset with
    world := { State.reset.world with lines := List.replicate (passFuel cfg0 + 1) Inputs.quiet } }

theorem witness_BootIsARunOfSteps :
    wBoot.Inv ∧ wBoot.seq.sst = .sOpen ∧
    wBoot.world.lines = List.replicate (passFuel wBoot.cfg + 1) Inputs.quiet :=
  ⟨by constructor <;> decide, by decide, rfl⟩

/-- Operands at the ends of their ranges. -/
theorem witness_CommandsDecodeTheirEncoding :
    Config.legal {} = true ∧ Config.legal { reportSize := 8, cmdGetData := 0x51#8 } = true ∧
    Instr.wellFormed {} (.i2cWriteRead 0x7F#7 (List.replicate 60 0xFF#8) 60#8) = true ∧
    encode {} (.i2cWriteRead 0x7F#7 (List.replicate 60 0xFF#8) 60#8)
      = some (.cmd ([0x22#8, 0x7F#8, 0x3C#8, 0x3C#8] ++ List.replicate 60 0xFF#8)) := by decide

theorem witness_ResponsesDecodeTheirEncoding :
    Config.legal {} = true ∧ Instr.wellFormed {} (.rspData 7#8 255#8 (List.replicate 60 1#8)) = true ∧
    encode {} (.rspData 7#8 255#8 (List.replicate 60 1#8))
      = some (.rsp (some ([0x31#8, 0x00#8, 7#8, 255#8] ++ List.replicate 60 1#8))) := by decide

theorem witness_RequestsAndPairsDecodeTheirEncoding :
    encode {} (.configure 400000#32) = some (.req 0#2 0#8 [0x80#8, 0x1A#8, 0x06#8, 0x00#8] 0) ∧
    encode {} .decodeFull = some (.pair 0b01#2) := by decide

theorem witness_AcceptedCommandIsItsEncoding : Config.legal {} = true ∧ decode {} (.cmd wReport) = .ok wInstr := by decide

theorem witness_DecoderAgreesWithClassify :
    classify {} (rep [0x10, 0x00]) 0x10#8 = .accepted ∧ classify {} (rep [0x22, 0x01]) 0x22#8 = .busy ∧
    classify {} (rep [0x30, 0x00, 0x01]) 0x30#8 = .status .inProgress ∧
    classify {} (rep [0x30, 0x00, 0x02]) 0x30#8 = .status .complete ∧
    classify {} (rep [0x30, 0x00, 0x03]) 0x30#8 = .status .errNack ∧
    classify {} (rep [0x30, 0x00, 0x04]) 0x30#8 = .status .errTimeout ∧
    classify {} (rep [0x31, 0x02]) 0x31#8 = .noData ∧
    classify {} (rep [0x31, 0x00, 0x00, 0xFF]) 0x31#8 = .data 255#8 (List.replicate 60 0#8) := by decide

end Sys2Proof.Tests
end

section
/-! What one step of the block can do, said once: `step_move`. -/

namespace Sys2Proof.Machine

/-! ### A decoded command report runs as one exchange -/

/-- The operations a command report decodes to: the CMD rows of the opcode table (R60). -/
def isCommandRow : Instr → Bool
  | .setSpeed _ => true
  | .i2cWrite _ _ => true
  | .i2cRead _ _ => true
  | .i2cWriteRead _ _ _ => true
  | .getStatus => true
  | .getData => true
  | _ => false

theorem isCommandRow_of_decodeCommand {c : Config} {tx : Report} {i : Instr} (h : decodeCommand c tx = .ok i) :
    isCommandRow i = true := by
  unfold decodeCommand at h
  repeat' split at h
  all_goals cases h
  all_goals rfl

/-- A CMD row exchanges its report (R90). -/
theorem exec_commandRow {i : Instr} (hi : isCommandRow i = true) (s : State) : ∃ tx, exec i s = sendReport tx s := by
  cases i
  case setSpeed | i2cWrite | i2cRead | i2cWriteRead | getStatus | getData => exact ⟨_, rfl⟩
  all_goals cases hi

/-- A CMD row that answers a next state has made the exchange that was next. -/
theorem exec_commandRow_next {i : Instr} {s t : State} (hi : isCommandRow i = true) (h : exec i s = .next t) :
    ∃ tx, nextReport s.cfg s.brg = some tx ∧ t = exchangeStep s := by
  obtain ⟨tx, htx⟩ := exec_commandRow hi s
  rw [htx] at h
  rcases sendReport_cases tx s with ⟨hnext, hrun⟩ | ⟨-, hrun⟩ <;> rw [hrun] at h <;> cases h
  exact ⟨tx, hnext, rfl⟩

/-! ### The moves of a step -/

/-- What the block can do once a step has begun in `u` (R182, R183). -/
inductive Move (u : State) : State → Prop
  /-- `rst` with a legal `DEBOUNCE_N` (R215). -/
  | reset (hrst : u.world.inp.rst = true) (hn : u.world.inp.debounceN ≠ 0#8) : Move u (resetBlock u)
  /-- `S_OPEN` opens (R170). -/
  | opened (hsst : u.seq.sst = .sOpen) : Move u (openStep u)
  /-- The exchange that is next, with the reactions to it (R90). -/
  | exchange (tx : Report) (hnext : nextReport u.cfg u.brg = some tx) : Move u (exchangeStep u)
  /-- The next operation of a start-up pass is started (R171 to R173). -/
  | start (hpass : inPass u = true) (hbst : u.brg.bst = .bIdle) : Move u (startStep u)
  /-- A honoured tick (R174). -/
  | poll (hsst : u.seq.sst = .sIdle) (hbst : u.brg.bst = .bIdle) : Move u (beginPoll u)
  /-- A honoured stop (R181). -/
  | stop (hsst : u.seq.sst = .sIdle) : Move u (stopStep u)
  /-- The block waits (R180). -/
  | rest : Move u u

/-- The answer of an agenda item. -/
def runAgenda (a : Agenda) (u : State) : Host.Outcome State Fault Refusal :=
  match a with
  | .run i => exec i u
  | .startOperation => .next (startStep u)
  | .startPoll => .next (beginPoll u)
  | .rest => .next u
  | .undecodable => .fault .undecodableReport

theorem blockStep_eq (u : State) : blockStep u = runAgenda (agenda u) u := rfl

section
variable {u t : State}

theorem move_of_idleAgenda (hsst : u.seq.sst = .sIdle) (hbst : u.brg.bst = .bIdle)
    (h : runAgenda (idleAgenda u.world.inp) u = .next t) : Move u t := by
  unfold idleAgenda at h
  split at h
  · have hstop : exec .stop u = .next (stopStep u) := if_pos hsst
    cases hstop.symm.trans h
    exact .stop hsst
  · split at h <;> cases h
    · exact .poll hsst hbst
    · exact .rest

theorem move_of_quietAgenda (h : runAgenda (quietAgenda u) u = .next t) : Move u t := by
  unfold quietAgenda at h
  split at h
  case isFalse => cases h; exact .rest
  case isTrue hbst =>
    split at h
    case h_1 hsst | h_2 hsst | h_3 hsst => cases h; exact .start (by simp [inPass, hsst]) hbst
    case h_4 hsst => exact move_of_idleAgenda hsst hbst h
    all_goals cases h; exact .rest

theorem move_of_fetchAgenda (h : runAgenda (fetchAgenda u) u = .next t) : Move u t := by
  unfold fetchAgenda at h
  split at h
  · exact move_of_quietAgenda h
  · split at h
    · next i hi =>
      obtain ⟨tx, hnext, rfl⟩ := exec_commandRow_next (isCommandRow_of_decodeCommand hi) h
      exact .exchange tx hnext
    · cases h

theorem move_of_reset (hrst : u.world.inp.rst = true) (h : exec .reset u = .next t) : Move u t := by
  change (if u.world.inp.debounceN = 0#8 then _ else _) = _ at h
  split at h <;> cases h
  exact .reset hrst ‹_›

theorem move_of_blockStep (h : blockStep u = .next t) : Move u t := by
  rw [blockStep_eq] at h
  unfold agenda at h
  split at h
  · exact move_of_reset ‹_› h
  · split at h
    case h_1 hsst =>
      have hopen : exec .openBridge u = .next (openStep u) := if_pos hsst
      cases hopen.symm.trans h
      exact .opened hsst
    case h_2 | h_3 => cases h; exact .rest
    all_goals exact move_of_fetchAgenda h

end

/-- Every step that answers a next state is one of the moves. -/
theorem step_move {s t : State} (h : step s = .next t) : Move (beginStep s) t := move_of_blockStep h

end Sys2Proof.Machine
end

section
/-! The bridge controller's part of `State.Inv`: what each update of its registers keeps. -/

namespace Sys2Proof.Machine

theorem legal_four_le_maxPayload {c : Config} (h : c.legal = true) : 4 ≤ c.maxPayload := by
  have h1 := legal_maxPayload h
  have h2 := legal_reportSize h
  omega

/-- The bounds of the registers of `BRG` (R15, R17, R18), without the widths, which follow from them. -/
structure BridgeBounds (c : Config) (b : BridgeRegs) : Prop where
  wd_length : b.wd.length = c.maxPayload
  rd_length : b.rd.length = c.maxPayload
  wl_le : b.wl ≤ c.maxPayload
  rl_le : b.rl ≤ c.maxPayload
  k_le : b.k ≤ c.statusPollMax

/-- The part of `State.Inv` about the registers of `BRG`. -/
structure BridgeSound (c : Config) (b : BridgeRegs) : Prop extends BridgeBounds c b where
  poll_left : b.bst = .bStat → b.k < c.statusPollMax

section
variable {c : Config} {b : BridgeRegs}

theorem bridgeSound_reset (c : Config) : BridgeSound c (BridgeRegs.reset c) := by
  constructor
  · constructor <;> simp [BridgeRegs.reset]
  · nofun

/-- Outside `B_STAT` the bounds are all there is to keep. -/
theorem BridgeBounds.set_bst (h : BridgeBounds c b) {x : BridgeState} (hx : x ≠ .bStat) :
    BridgeSound c { b with bst := x } :=
  { h with poll_left := fun e => absurd e hx }

theorem BridgeBounds.finish (h : BridgeBounds c b) (o : BusOutcome) : BridgeSound c (finish o b) :=
  { h with poll_left := nofun }

theorem BridgeBounds.attemptFail (h : BridgeBounds c b) (o : BusOutcome) : BridgeSound c (attemptFail c o b) := by
  rcases attemptFail_cases c o b with ⟨-, -, hr⟩ | ⟨-, hr⟩ <;> rw [hr]
  · exact { h with poll_left := nofun }
  · exact h.finish o

theorem BridgeBounds.countPoll (h : BridgeBounds c b) (hk : b.k < c.statusPollMax) :
    BridgeBounds c (countPoll c b) := by
  rw [countPoll_of_lt hk]
  exact { h with k_le := hk }

/-- A matching data report fills `rd` from its beginning (R107). -/
theorem BridgeBounds.copyReply (h : BridgeBounds c b) (bytes : List Byte) :
    BridgeBounds c { b with rd := overwrite (bytes.take b.rl) b.rd } := by
  have hfit : (bytes.take b.rl).length ≤ b.rd.length :=
    (List.length_take_le ..).trans (h.rl_le.trans_eq h.rd_length.symm)
  exact { h with rd_length := (overwrite_length _ _ hfit).trans h.rd_length }

theorem BridgeBounds.startOp (h : BridgeBounds c b) {q : Request} (hc : c.legal = true) (hq : argsOk c q = true) :
    BridgeSound c (startOp c q b) := by
  obtain ⟨-, hw, hr⟩ := argsOk_bounds hq (legal_four_le_maxPayload hc)
  exact
    { wd_length := (overwrite_length _ _ (hw.trans_eq h.wd_length.symm)).trans h.wd_length
      rd_length := h.rd_length
      wl_le := (lenReg_of_le hw).trans_le hw
      rl_le := (lenReg_of_le hr).trans_le hr
      k_le := h.k_le
      poll_left := nofun }

theorem attemptFail_open (c : Config) (o : BusOutcome) (b : BridgeRegs) : (attemptFail c o b).bst ≠ .bClosed := by
  rcases attemptFail_bst c o b with h | h <;> simp [h]

/-- One exchange keeps the registers of `BRG` sound, and the handle held (R97 to R112). -/
theorem BridgeSound.bridgeReact (h : BridgeSound c b) (hc : c.legal = true) (a : XchgAnswer)
    (hb : b.bst = .bCmd ∨ b.bst = .bStat ∨ b.bst = .bData) :
    BridgeSound c (bridgeReact c a b) ∧ (bridgeReact c a b).bst ≠ .bClosed := by
  obtain ⟨b0, hb0, hr⟩ := bridgeReact_cases c a b hb
  have hbounds : BridgeBounds c b0 := by
    rcases hb0 with ⟨rfl, -⟩ | ⟨rfl, hst⟩
    · exact h.toBridgeBounds
    · exact h.countPoll (h.poll_left hst)
  rcases hr with ⟨o, hr⟩ | ⟨o, hr⟩ | ⟨hdata, bytes, -, hr⟩ | ⟨-, hr⟩ | ⟨hst, hk, hr⟩ | ⟨-, hr⟩ <;> rw [hr]
  · exact ⟨hbounds.attemptFail o, attemptFail_open c o b0⟩
  · exact ⟨hbounds.finish o, nofun⟩
  · have h0 : b0 = b := by
      rcases hb0 with ⟨rfl, -⟩ | ⟨-, hst⟩
      · rfl
      · rw [hdata] at hst; cases hst
    subst h0
    exact ⟨(hbounds.copyReply bytes).finish .ok, nofun⟩
  · exact ⟨{ h with k_le := Nat.zero_le _, poll_left := fun _ => legal_statusPollMax hc }, nofun⟩
  · have h0 : b0 = Machine.countPoll c b := by
      rcases hb0 with ⟨-, hne⟩ | ⟨rfl, -⟩
      · exact absurd hst hne
      · rfl
    subst h0
    exact ⟨{ hbounds with poll_left := fun _ => lt_of_le_of_ne hbounds.k_le hk }, by simp [hst]⟩
  · exact ⟨hbounds.set_bst nofun, nofun⟩

end

end Sys2Proof.Machine
end

section
/-! The slot engine's part of `State.Inv`: what a debounce and a whole slot cycle keep. -/

namespace Sys2Proof.Machine

/-! ### One slot -/

/-- R30 (c), (d) for the registers of one slot. -/
structure SlotSound (n : BitVec 8) (commit cand : SlotState) (cnt : BitVec 8) : Prop where
  cnt_lt : cnt.toNat < n.toNat
  cand_of_zero : cnt = 0#8 → cand = commit
  cand_of_pos : cnt ≠ 0#8 → cand ≠ commit ∧ cand ≠ .unknown

theorem slotSound_settled {n : BitVec 8} (hn : 1 ≤ n.toNat) (x : SlotState) : SlotSound n x x 0#8 :=
  ⟨hn, fun _ => rfl, fun h => absurd rfl h⟩

/-- A count that has just been taken is not 0 (R150, R151, R167). -/
theorem observations_ne_zero {d cand : SlotState} {cnt : BitVec 8} (h : cnt.toNat < 255) :
    observations d cand cnt ≠ 0#8 := by
  intro h0
  have hval := observations_toNat d cand cnt h
  rw [h0] at hval
  split at hval <;> simp at hval

section
variable {n cnt : BitVec 8} {d commit cand : SlotState}

/-- A debounce keeps one slot's registers sound (R148 to R152). -/
theorem SlotSound.debounceOne (h : SlotSound n commit cand cnt) (hd : d ≠ .unknown) :
    SlotSound n (debounceOne n d commit cand cnt).commit (debounceOne n d commit cand cnt).cand
      (debounceOne n d commit cand cnt).cnt := by
  have hlt := h.cnt_lt
  rcases debounceOne_cases n d commit cand cnt with ⟨rfl, hr⟩ | ⟨-, -, hr⟩ | ⟨hne, hobs, hr⟩ <;> rw [hr]
  · exact slotSound_settled (by omega) d
  · exact slotSound_settled (by omega) d
  · have hpos : observations d cand cnt ≠ 0#8 := observations_ne_zero (by omega)
    exact ⟨hobs, fun h0 => absurd h0 hpos, fun _ => ⟨hne, hd⟩⟩

/-- A debounce commits only what was decoded (R152, R153). -/
theorem debounceOne_commit_ne_unknown (hd : d ≠ .unknown) (hc : commit ≠ .unknown) :
    (debounceOne n d commit cand cnt).commit ≠ .unknown := by
  rcases debounceOne_cases n d commit cand cnt with ⟨-, hr⟩ | ⟨-, -, hr⟩ | ⟨-, -, hr⟩ <;> rw [hr]
  · exact hc
  · exact hd
  · exact hc

end

/-! ### The six slots, the snapshot and the outputs -/

/-- The part of `State.Inv` about the slot registers and the timestamps. -/
structure SlotsSound (c : Config) (r : SlotRegs) (out : List Output) : Prop where
  ts_width : r.snap.ts < 2 ^ c.timeW
  out_ts_width : ∀ o ∈ out, o.ts < 2 ^ c.timeW
  snap_commit : r.snap.st = r.commit
  slot : ∀ i, SlotSound c.debounceN (r.commit.get i) (r.cand.get i) (r.cnt.get i)

theorem slotsSound_reset {c : Config} (hc : c.legal = true) : SlotsSound c SlotRegs.reset [] where
  ts_width := by simp [SlotRegs.reset]
  out_ts_width := by simp
  snap_commit := rfl
  slot i := by simpa [SlotRegs.reset] using slotSound_settled (legal_debounceN hc) .unknown

/-- Marking the snapshot stale touches nothing the slots' soundness speaks of (R191). -/
theorem SlotsSound.set_stale {c : Config} {r : SlotRegs} {out : List Output} (h : SlotsSound c r out) (b : Bool) :
    SlotsSound c { r with snap := { r.snap with stale := b } } out :=
  { ts_width := h.ts_width, out_ts_width := h.out_ts_width, snap_commit := h.snap_commit, slot := h.slot }

/-- What is emitted bears the time of the dispatch (R156). -/
theorem emitted_ts {s : State} {t : Time} {i : Fin 6} {o : Output} (h : o ∈ emitted s t i) : o.ts = t := by
  unfold emitted at h
  split at h
  · cases h
  · rcases List.mem_cons.mp h with rfl | h
    · rfl
    · split at h
      · rw [List.mem_singleton.mp h]; rfl
      · cases h

/-- A slot cycle at a time of `TIME_W` bits keeps the slots sound (R145). -/
theorem SlotsSound.slotCycle {s : State} (h : SlotsSound s.cfg s.slt s.out) {t : Time} (ht : t < 2 ^ s.cfg.timeW) :
    SlotsSound s.cfg (slotCycle t s).slt (slotCycle t s).out where
  ts_width := by rw [slotCycle_snap]; exact ht
  out_ts_width o ho := by
    rw [slotCycle_out, List.mem_append, List.mem_flatMap] at ho
    rcases ho with ho | ⟨i, -, ho⟩
    · exact h.out_ts_width o ho
    · rw [emitted_ts ho]; exact ht
  snap_commit := by rw [slotCycle_snap]
  slot i := by
    obtain ⟨hcommit, hcand, hcnt⟩ := slotCycle_get t s i
    rw [hcommit, hcand, hcnt]
    exact (h.slot i).debounceOne (decodedSlot_ne_unknown s i)

/-- A slot cycle never writes UNKNOWN over a committed state (R153). -/
theorem slotCycle_commit_ne_unknown (t : Time) {s : State} {i : Fin 6} (h : s.slt.commit.get i ≠ .unknown) :
    (slotCycle t s).slt.commit.get i ≠ .unknown := by
  obtain ⟨hcommit, -⟩ := slotCycle_get t s i
  rw [hcommit]
  exact debounceOne_commit_ne_unknown (decodedSlot_ne_unknown s i) h

end Sys2Proof.Machine
end

section
/-! `State.Inv` taken apart: the data, and the three ways the control state can stand. Every move of a step leaves sound data and
ends in one of the three. -/

namespace Sys2Proof.Machine

/-- The part of `State.Inv` that does not speak of `sst`, `rc` and `ERR`. -/
structure DataSound (s : State) : Prop where
  legal : s.cfg.legal = true
  bridge : BridgeSound s.cfg s.brg
  slots : SlotsSound s.cfg s.slt s.out
  no_events : s.scratch.ev = Six.fill none
  handle_iff : s.world.handle = true ↔ s.brg.bst ≠ .bClosed

theorem State.Inv.data {s : State} (h : s.Inv) : DataSound s where
  legal := h.legal
  bridge := ⟨⟨h.wd_length, h.rd_length, h.wl_le, h.rl_le, h.k_le⟩, h.poll_left⟩
  slots := ⟨h.ts_width, h.out_ts_width, h.snap_commit, fun i => ⟨h.cnt_lt i, h.cand_of_zero i, h.cand_of_pos i⟩⟩
  no_events := h.no_events
  handle_iff := h.handle_iff

/-- R30 (h): a fresh snapshot goes with a clear `ERR`. -/
def FreshIsClear (s : State) : Prop := s.slt.snap.stale = false → s.seq.err = ⟨.noErr, .ok⟩

/-- The part of `State.Inv` about `sst`, `rc` and `ERR`. -/
structure ControlSound (s : State) : Prop where
  closed : s.seq.sst = .sDead ∨ s.seq.sst = .sOff ∨ s.seq.sst = .sOpen → s.brg.bst = .bClosed
  idle : s.seq.sst = .sIdle → s.brg.bst = .bIdle
  pass_open : inPass s = true → s.brg.bst ≠ .bClosed
  read_busy : s.seq.sst = .sRead → s.busy = true
  in_flight : s.busy = true → ownRequest s = some (latchedRequest s.brg)
  settled : s.seq.sst = .sIdle ∨ s.seq.sst = .sRead → s.seq.rc = false
  fresh : FreshIsClear s
  dead_stale : s.seq.sst = .sDead → s.slt.snap.stale = true

/-- The two parts make the invariant: the widths follow from the bounds, and the sequencer's own requests are in bounds. -/
theorem DataSound.inv {s : State} (h : DataSound s) (g : ControlSound s) : s.Inv :=
  { h, h.bridge, h.slots, g with
    wl_width := lt_two_pow_bitWidth h.bridge.wl_le
    rl_width := lt_two_pow_bitWidth h.bridge.rl_le
    k_width := lt_two_pow_bitWidth h.bridge.k_le
    cnt_lt := fun i => (h.slots.slot i).cnt_lt
    cand_of_zero := fun i => (h.slots.slot i).cand_of_zero
    cand_of_pos := fun i => (h.slots.slot i).cand_of_pos
    in_bounds := fun hb => argsOk_ownRequest h.legal (g.in_flight hb) }

/-! ### What the control states are -/

section
variable {s : State}

theorem busy_iff : s.busy = true ↔ s.brg.bst ≠ .bClosed ∧ s.brg.bst ≠ .bIdle := decide_eq_true_iff

theorem ownRequest_of_inPass (h : inPass s = true) : ∃ q, ownRequest s = some q := by
  cases hs : s.seq.sst <;> simp [inPass, ownRequest, hs] at h ⊢

/-- A state with an operation of its own is in the pass or in `S_READ` (R171 to R174). -/
theorem sst_of_own {q : Request} (h : ownRequest s = some q) :
    s.seq.sst ≠ .sOpen ∧ s.seq.sst ≠ .sIdle ∧ s.seq.sst ≠ .sDead ∧ s.seq.sst ≠ .sOff := by
  cases hs : s.seq.sst <;> simp [ownRequest, hs] at h ⊢

/-! ### The invariant from sound data, by control state -/

/-- The block waits for the next poll: `S_IDLE` (R180, R185). -/
theorem DataSound.inv_waiting (h : DataSound s) (hsst : s.seq.sst = .sIdle) (hbst : s.brg.bst = .bIdle)
    (hrc : s.seq.rc = false) (hfresh : FreshIsClear s) : s.Inv :=
  h.inv {
    closed := by simp [hsst]
    idle := fun _ => hbst
    pass_open := by simp [inPass, hsst]
    read_busy := by simp [hsst]
    in_flight := by simp [busy_iff, hbst]
    settled := fun _ => hrc
    fresh := hfresh
    dead_stale := by simp [hsst] }

/-- The handle is closed: `S_OPEN`, `S_DEAD`, `S_OFF` (R30 (g)). -/
theorem DataSound.inv_closed (h : DataSound s) (hsst : s.seq.sst = .sDead ∨ s.seq.sst = .sOff ∨ s.seq.sst = .sOpen)
    (hbst : s.brg.bst = .bClosed) (hdead : s.seq.sst = .sDead → s.slt.snap.stale = true)
    (hfresh : FreshIsClear s) : s.Inv :=
  h.inv {
    closed := fun _ => hbst
    idle := by rcases hsst with e | e | e <;> simp [e]
    pass_open := by rcases hsst with e | e | e <;> simp [inPass, e]
    read_busy := by rcases hsst with e | e | e <;> simp [e]
    in_flight := by simp [busy_iff, hbst]
    settled := by rcases hsst with e | e | e <;> simp [e]
    fresh := hfresh
    dead_stale := hdead }

/-- The sequencer has an operation of its own, in flight or, in a start-up pass, to be started (R53, R171 to R174). -/
theorem DataSound.inv_working (h : DataSound s) {q : Request} (hown : ownRequest s = some q)
    (hopen : s.brg.bst ≠ .bClosed) (hlatch : s.busy = true → latchedRequest s.brg = q)
    (hread : s.seq.sst = .sRead → s.busy = true ∧ s.seq.rc = false) (hfresh : FreshIsClear s) : s.Inv := by
  obtain ⟨hnopen, hnidle, hndead, hnoff⟩ := sst_of_own hown
  have hflight : s.busy = true → ownRequest s = some (latchedRequest s.brg) := fun hb => by rw [hown, hlatch hb]
  exact h.inv {
    closed := by simp [hnopen, hndead, hnoff]
    idle := fun e => absurd e hnidle
    pass_open := fun _ => hopen
    read_busy := fun e => (hread e).1
    in_flight := hflight
    settled := fun e => (hread (e.resolve_left hnidle)).2
    fresh := hfresh
    dead_stale := fun e => absurd e hndead }

end

/-! ### Sound data through the updates -/

section
variable {s : State}

theorem DataSound.setSst (h : DataSound s) (x : SeqState) : DataSound (setSst x s) :=
  ⟨h.legal, h.bridge, h.slots, h.no_events, h.handle_iff⟩

theorem DataSound.setRc (h : DataSound s) (b : Bool) : DataSound (setRc b s) :=
  ⟨h.legal, h.bridge, h.slots, h.no_events, h.handle_iff⟩

theorem DataSound.markFailed (h : DataSound s) (e : ErrClass) (o : BusOutcome) : DataSound (markFailed e o s) :=
  ⟨h.legal, h.bridge, h.slots.set_stale true, h.no_events, h.handle_iff⟩

theorem DataSound.hidClose (h : DataSound s) : DataSound (hidClose s) where
  legal := by simpa using h.legal
  bridge := by simpa [hidClose_brg] using h.bridge.set_bst (x := .bClosed) nofun
  slots := by simpa using h.slots
  no_events := by simpa using h.no_events
  handle_iff := by simp [hidClose_handle h.handle_iff]

/-- Registers of `BRG` may be replaced by sound ones that keep the handle. -/
theorem DataSound.setBrg (h : DataSound s) {b : BridgeRegs} (hb : BridgeSound s.cfg b)
    (hopen : b.bst ≠ .bClosed ↔ s.brg.bst ≠ .bClosed) : DataSound (setBrg b s) :=
  ⟨h.legal, hb, h.slots, h.no_events, h.handle_iff.trans hopen.symm⟩

end

/-! ### Errors -/

/-- Raising an error ends in a sound state: the block waits for the next poll where the class says so and it can, else the
handle is closed (R190). -/
theorem DataSound.raise {s : State} (h : DataSound s) {e : ErrClass} (he : e ≠ .noErr)
    (hwait : e = .busTimeout ∨ e = .busError → s.brg.bst = .bIdle ∧ s.seq.rc = false) (o : BusOutcome) :
    (raise e o s).Inv := by
  have hm := h.markFailed e o
  rcases raise_cases e o s with ⟨rfl, -⟩ | ⟨hclass, hr⟩ | ⟨-, hr⟩ | ⟨-, hr⟩
  · exact absurd rfl he
  · obtain ⟨hbst, hrc⟩ := hwait hclass
    rw [hr]
    exact (hm.setSst .sIdle).inv_waiting rfl hbst hrc nofun
  · rw [hr]
    exact (hm.hidClose.setSst .sDead).inv_closed (.inl rfl) (hidClose_bst _) (by simp) (by simp [FreshIsClear])
  · rw [hr]
    unfold fatalIO
    split
    · exact (hm.hidClose.setSst .sDead).inv_closed (.inl rfl) (hidClose_bst _) (by simp) (by simp [FreshIsClear])
    · exact ((hm.hidClose.setRc true).setSst .sOpen).inv_closed (.inr (.inr rfl)) (hidClose_bst _) (by simp)
        (by simp [FreshIsClear])

end Sys2Proof.Machine
end

section
/-! Every move of a step keeps `State.Inv`. -/

namespace Sys2Proof.Machine

/-! ### The beginning of a step -/

theorem beginStep_eq (s : State) : beginStep s = { s with world := (beginStep s).world } := by
  unfold beginStep; split <;> rfl

theorem State.Inv.beginStep {s : State} (h : s.Inv) : (beginStep s).Inv := by
  have hworld : (Machine.beginStep s).world.handle = true ↔ s.brg.bst ≠ .bClosed := by
    rw [beginStep_handle]; exact h.handle_iff
  rw [beginStep_eq]
  exact { h with handle_iff := hworld }

/-! ### Reset -/

/-- A block at its reset values with no handle held is sound, for all legal parameters (R33). -/
theorem inv_of_reset {c : Config} {w : World} (hc : c.legal = true) (hw : w.handle = false) :
    State.Inv { State.reset with cfg := c, brg := BridgeRegs.reset c, world := w } := by
  have hdata : DataSound { State.reset with cfg := c, brg := BridgeRegs.reset c, world := w } :=
    ⟨hc, bridgeSound_reset c, slotsSound_reset hc, rfl, by simp [hw, BridgeRegs.reset]⟩
  exact hdata.inv_closed (.inr (.inr rfl)) rfl nofun (fun _ => rfl)

theorem resetBlock_inv {s : State} (h : s.Inv) (hn : s.world.inp.debounceN ≠ 0#8) : (resetBlock s).Inv :=
  inv_of_reset (legal_sampled h.legal hn s.world.inp.notifyEn) (hidClose_handle h.handle_iff)

/-! ### Open and stop -/

@[simp] theorem afterOpen_handle (w : World) : w.afterOpen.handle = w.handle := by
  unfold World.afterOpen; split <;> rfl

@[simp] theorem afterXchg_handle (w : World) : w.afterXchg.handle = w.handle := by
  unfold World.afterXchg; split <;> rfl

/-- The state once `HidOpen` has been called and answered (R205). -/
def openCalled (s : State) : State :=
  { s with hid := s.hid ++ [.opened s.world.openAnswer], world := s.world.afterOpen }

/-- The state with the handle held and the bridge idle: the start of a start-up pass (R170). -/
def enterPass (s : State) : State :=
  setSst .sConfig { s with brg := { s.brg with bst := .bIdle }, world := { s.world with handle := true } }

/-- Everything OPEN can do (R170). -/
theorem openStep_cases (s : State) :
    openStep s = enterPass (openCalled s) ∨ openStep s = raise .deviceNotFound .ok (openCalled s) := by
  unfold openStep
  split
  · exact .inl rfl
  · exact .inr rfl

theorem openStep_inv {s : State} (h : s.Inv) : (openStep s).Inv := by
  have hdata : DataSound (openCalled s) :=
    { h.data with handle_iff := by simpa [openCalled] using h.handle_iff }
  rcases openStep_cases s with hr | hr <;> rw [hr]
  · have hpass : DataSound (enterPass (openCalled s)) :=
      { hdata with
        bridge := hdata.bridge.set_bst (x := .bIdle) nofun
        handle_iff := ⟨fun _ => nofun, fun _ => rfl⟩ }
    exact hpass.inv_working rfl nofun nofun nofun h.fresh
  · exact hdata.raise (e := .deviceNotFound) nofun (by simp) .ok

theorem stopStep_inv {s : State} (h : s.Inv) : (stopStep s).Inv :=
  (h.data.hidClose.setSst .sOff).inv_closed (.inr (.inl rfl)) (hidClose_bst s) nofun
    (by simpa [FreshIsClear] using h.fresh)

/-! ### Starts -/

/-- A start leaves the sequencer's own operation in flight (R92). -/
theorem startStep_inv {s : State} (h : DataSound s) {q : Request} (hown : ownRequest s = some q)
    (hbst : s.brg.bst = .bIdle) (hrc : s.seq.sst = .sRead → s.seq.rc = false) (hfresh : FreshIsClear s) :
    (startStep s).Inv := by
  have hq := argsOk_ownRequest h.legal hown
  rw [startStep_of_own h.legal hown]
  have hdata : DataSound (setBrg (startOp s.cfg q s.brg) s) :=
    h.setBrg (h.bridge.startOp h.legal hq) (by simp [hbst])
  exact hdata.inv_working (q := q) hown nofun
    (fun _ => latchedRequest_startOp s.brg hq (legal_four_le_maxPayload h.legal))
    (fun e => ⟨rfl, hrc e⟩) hfresh

theorem startStep_pass_inv {s : State} (h : s.Inv) (hpass : inPass s = true) (hbst : s.brg.bst = .bIdle) :
    (startStep s).Inv := by
  obtain ⟨q, hown⟩ := ownRequest_of_inPass hpass
  exact startStep_inv h.data hown hbst (fun e => h.settled (.inr e)) h.fresh

theorem beginPoll_inv {s : State} (h : s.Inv) (hsst : s.seq.sst = .sIdle) (hbst : s.brg.bst = .bIdle) :
    (beginPoll s).Inv :=
  startStep_inv (h.data.setSst .sRead) rfl hbst (fun _ => h.settled (.inl hsst)) h.fresh

/-! ### Exchanges -/

/-- The state of an operation of the sequencer between an exchange and the reaction to it: the operation goes on, or it has just
ended. -/
structure Reacting (s : State) : Prop where
  data : DataSound s
  opened : s.brg.bst ≠ .bClosed
  own : ownRequest s = some (latchedRequest s.brg)
  read_rc : s.seq.sst = .sRead → s.seq.rc = false
  fresh : FreshIsClear s

theorem bst_of_nextReport {c : Config} {b : BridgeRegs} {tx : Report} (h : nextReport c b = some tx) :
    b.bst = .bCmd ∨ b.bst = .bStat ∨ b.bst = .bData := by
  rcases (nextReport_eq_some_iff c b tx).1 h with ⟨hb, -⟩ | ⟨hb, -⟩ | ⟨hb, -⟩ <;> simp [hb]

theorem reacting_bridgeStep {s : State} {tx : Report} (h : s.Inv) (hnext : nextReport s.cfg s.brg = some tx) :
    Reacting (bridgeStep s) := by
  have hbst := bst_of_nextReport hnext
  have hbusy : s.busy = true := by rw [busy_iff]; rcases hbst with e | e | e <;> simp [e]
  obtain ⟨hbridge, hopen⟩ := h.data.bridge.bridgeReact h.legal s.world.xchgAnswer hbst
  have hheld : s.world.handle = true := h.handle_iff.2 (busy_iff.1 hbusy).1
  rw [bridgeStep_of_next hnext]
  exact
    { data := { h.data with bridge := hbridge, handle_iff := by simp [exchanged, hheld, hopen] }
      opened := hopen
      own := (h.in_flight hbusy).trans (congrArg some (bridgeReact_latch _ _ _).request.symm)
      read_rc := fun e => h.settled (.inr e)
      fresh := h.fresh }

/-- Capture, slot cycle and return from an error keep the data sound (R175). -/
theorem DataSound.pollDone {s : State} (h : DataSound s) : DataSound (pollDone s) := by
  obtain ⟨hcfg, hbrg, -, -, -, hworld, hslt, hout⟩ := pollDone_fields s
  obtain ⟨-, -, -, -, -, -, hev⟩ := slotCycle_frame s.now (setPort (assemblePort s.brg.rd) s)
  have hport : DataSound (setPort (assemblePort s.brg.rd) s) :=
    ⟨h.legal, h.bridge, h.slots, h.no_events, h.handle_iff⟩
  have hcycle := hport.slots.slotCycle (timeOf_lt s.cfg s.world.inp.now)
  exact
    { legal := by rw [hcfg]; exact h.legal
      bridge := by rw [hcfg, hbrg]; exact h.bridge
      slots := by rw [hcfg, hslt, hout]; exact hcycle
      no_events := hev
      handle_iff := by rw [hworld, hbrg]; exact h.handle_iff }

theorem bootErrClass_ne_bus (o : BusOutcome) : bootErrClass o ≠ .busTimeout ∧ bootErrClass o ≠ .busError := by
  cases o <;> simp [bootErrClass]

/-- The reaction to the end of an operation reaches a sound state (R171 to R173, R175 to R177, R184). -/
theorem Reacting.react {s : State} (h : Reacting s) (hbst : s.brg.bst = .bIdle) : (react s).Inv := by
  have hnotBusy : s.busy = true → False := by simp [busy_iff, hbst]
  obtain ⟨hnopen, hnidle, hndead, hnoff⟩ := sst_of_own h.own
  rcases react_cases s with ⟨-, -, hr⟩ | ⟨-, -, hr⟩ | ⟨-, -, hr⟩ | ⟨-, hres, hr⟩ | ⟨hsst, -, hr⟩ | ⟨hsst, hres, hr⟩ |
    ⟨hsst, -⟩
  · rw [hr]
    exact (h.data.setSst .sInitDir).inv_working rfl h.opened (fun hb => (hnotBusy hb).elim) nofun h.fresh
  · rw [hr]
    exact (h.data.setSst .sInitPu).inv_working rfl h.opened (fun hb => (hnotBusy hb).elim) nofun h.fresh
  · rw [hr]
    exact ((h.data.setRc false).setSst .sIdle).inv_waiting rfl hbst rfl h.fresh
  · obtain ⟨hntimeout, hnerror⟩ := bootErrClass_ne_bus s.brg.res
    rw [hr]
    exact h.data.raise (bootErrClass_ne_noErr hres) (fun e => (e.elim hntimeout hnerror).elim) _
  · obtain ⟨-, hbrg, -, hseq, -⟩ := pollDone_fields s
    rw [hr]
    exact h.data.pollDone.inv_waiting (by rw [hseq]) (by rw [hbrg, hbst]) (by rw [hseq]; exact h.read_rc hsst)
      (fun _ => by rw [hseq])
  · rw [hr]
    exact h.data.raise (errOf_ne_noErr hres) (fun _ => ⟨hbst, h.read_rc hsst⟩) _
  · rcases hsst with e | e | e | e <;> contradiction

theorem Reacting.settle {s : State} (h : Reacting s) : (settle s).Inv := by
  by_cases hbst : s.brg.bst = .bIdle
  · rw [settle_of_idle hbst]
    exact h.react hbst
  · rw [settle_of_ne_idle hbst]
    exact h.data.inv_working h.own h.opened (fun _ => rfl) (fun e => ⟨busy_iff.2 ⟨h.opened, hbst⟩, h.read_rc e⟩) h.fresh

theorem exchangeStep_inv {s : State} {tx : Report} (h : s.Inv) (hnext : nextReport s.cfg s.brg = some tx) :
    (exchangeStep s).Inv :=
  (reacting_bridgeStep h hnext).settle

/-! ### Every move -/

theorem Move.inv {u t : State} (m : Move u t) (h : u.Inv) : t.Inv := by
  cases m with
  | reset _ hn => exact resetBlock_inv h hn
  | opened _ => exact openStep_inv h
  | exchange tx hnext => exact exchangeStep_inv h hnext
  | start hpass hbst => exact startStep_pass_inv h hpass hbst
  | poll hsst hbst => exact beginPoll_inv h hsst hbst
  | stop _ => exact stopStep_inv h
  | rest => exact h

/-- Settles O47, by the moves of a step: each leaves sound data and a sound control state. -/
theorem stepKeepsInvariant : Obligations.StepKeepsInvariant := by
  intro s t hinv hstep
  exact (step_move hstep).inv hinv.beginStep

/-- Settles O46, as the case of the default parameters among the reset states. -/
theorem resetStateIsSound : Obligations.ResetStateIsSound :=
  inv_of_reset (c := {}) (w := World.reset) (by decide) rfl

end Sys2Proof.Machine
end

section
/-! What a step without `rst` does to the slot registers and to the traces: the slot cycle of a successful poll is the only writer
of a slot, and the traces are append-only. -/

namespace Sys2Proof.Machine

/-- Everything a start can do: the latch is loaded (R92), or the request is out of bounds and an error is raised (R198). -/
theorem startStep_cases (s : State) :
    startStep s = s ∨ (∃ q, startStep s = setBrg (startOp s.cfg q s.brg) s) ∨ startStep s = raise .invalidArg .badArg s := by
  have hown (q : Request) : startOwn q s = setBrg (startOp s.cfg q s.brg) s ∨ startOwn q s = raise .invalidArg .badArg s := by
    unfold startOwn
    split
    · exact .inl rfl
    · exact .inr rfl
  unfold startStep
  split
  case h_1 | h_2 | h_3 | h_4 => exact .inr ((hown _).imp_left fun h => ⟨_, h⟩)
  all_goals exact .inl rfl

/-! ### The slot registers -/

theorem sameSlots_of_slt_eq {s t : State} (h : t.slt = s.slt) : sameSlots s t := by simp [sameSlots, h]

theorem sameSlots_raise (e : ErrClass) (o : BusOutcome) (s : State) : sameSlots s (raise e o s) := by simp [sameSlots]

theorem sameSlots_startStep (s : State) : sameSlots s (startStep s) := by
  rcases startStep_cases s with hr | ⟨q, hr⟩ | hr <;> rw [hr]
  · exact sameSlots_of_slt_eq rfl
  · exact sameSlots_of_slt_eq rfl
  · exact sameSlots_raise ..

theorem sameSlots_openStep (s : State) : sameSlots s (openStep s) := by
  rcases openStep_cases s with hr | hr <;> rw [hr]
  · exact sameSlots_of_slt_eq rfl
  · exact sameSlots_raise _ _ (openCalled s)

/-- A reaction touches the slots in a successful poll alone (R154, R175 to R177). -/
theorem settle_slots (s : State) :
    sameSlots s (settle s) ∨ (s.seq.sst = .sRead ∧ s.brg.res = .ok ∧ settle s = pollDone s) := by
  by_cases hbst : s.brg.bst = .bIdle
  · rw [settle_of_idle hbst]
    rcases react_cases s with ⟨-, -, hr⟩ | ⟨-, -, hr⟩ | ⟨-, -, hr⟩ | ⟨-, -, hr⟩ | ⟨hsst, hres, hr⟩ | ⟨-, -, hr⟩ | ⟨-, hr⟩ <;>
      rw [hr]
    · exact .inl (sameSlots_of_slt_eq rfl)
    · exact .inl (sameSlots_of_slt_eq rfl)
    · exact .inl (sameSlots_of_slt_eq rfl)
    · exact .inl (sameSlots_raise ..)
    · exact .inr ⟨hsst, hres, rfl⟩
    · exact .inl (sameSlots_raise ..)
    · exact .inl (sameSlots_of_slt_eq rfl)
  · rw [settle_of_ne_idle hbst]
    exact .inl (sameSlots_of_slt_eq rfl)

/-- A move without `rst` leaves the slots, or is the last exchange of a successful poll (R154). -/
theorem Move.slots {u t : State} (m : Move u t) (hrst : u.world.inp.rst = false) :
    sameSlots u t ∨ (u.seq.sst = .sRead ∧ (bridgeStep u).brg.res = .ok ∧ t = pollDone (bridgeStep u)) := by
  cases m with
  | reset h _ => simp [h] at hrst
  | opened _ => exact .inl (sameSlots_openStep u)
  | exchange tx _ => simpa [exchangeStep, sameSlots] using settle_slots (bridgeStep u)
  | start _ _ => exact .inl (sameSlots_startStep u)
  | poll _ _ => exact .inl (sameSlots_startStep (setSst .sRead u))
  | stop _ => exact .inl (sameSlots_of_slt_eq (by simp [stopStep]))
  | rest => exact .inl (sameSlots_of_slt_eq rfl)

/-- Settles O50: the slots are left, or each commits its debounce, which commits only decoded states. -/
theorem unknownIsNeverReentered : Obligations.UnknownIsNeverReentered := by
  intro s t i _ hrst hstep hi
  rcases (step_move hstep).slots hrst with ⟨hcommit, -⟩ | ⟨-, -, rfl⟩
  · rwa [hcommit, beginStep_slt]
  · obtain ⟨-, -, -, -, -, -, hslt, -⟩ := pollDone_fields (bridgeStep (beginStep s))
    rw [hslt]
    exact slotCycle_commit_ne_unknown _ (by simpa using hi)

/-! ### The traces -/

/-- From `s` to `t` the traces have only grown, `HID` by at most `n` calls (R27). -/
def TracesExtend (n : Nat) (s t : State) : Prop :=
  (∃ new, t.out = s.out ++ new) ∧ (∃ calls, t.hid = s.hid ++ calls ∧ calls.length ≤ n)

theorem tracesExtend_of_eq {n : Nat} {s t : State} (hout : t.out = s.out) (hhid : t.hid = s.hid) : TracesExtend n s t :=
  ⟨⟨[], by simp [hout]⟩, [], by simp [hhid], Nat.zero_le n⟩

theorem TracesExtend.trans {m n : Nat} {s t u : State} (h : TracesExtend m s t) (g : TracesExtend n t u) :
    TracesExtend (m + n) s u := by
  obtain ⟨⟨new, hnew⟩, calls, hcalls, hm⟩ := h
  obtain ⟨⟨new', hnew'⟩, calls', hcalls', hn⟩ := g
  refine ⟨⟨new ++ new', ?_⟩, calls ++ calls', ?_, ?_⟩
  · rw [hnew', hnew, List.append_assoc]
  · rw [hcalls', hcalls, List.append_assoc]
  · rw [List.length_append]; omega

theorem TracesExtend.mono {m n : Nat} {s t : State} (h : TracesExtend m s t) (hmn : m ≤ n) : TracesExtend n s t := by
  obtain ⟨hout, calls, hcalls, hm⟩ := h
  exact ⟨hout, calls, hcalls, hm.trans hmn⟩

theorem tracesExtend_hidClose (s : State) : TracesExtend 1 s (hidClose s) :=
  ⟨⟨[], by simp⟩, _, hidClose_hid s, by split <;> simp⟩

/-- An error makes no call but the close (R190). -/
theorem tracesExtend_raise (e : ErrClass) (o : BusOutcome) (s : State) : TracesExtend 1 s (raise e o s) := by
  obtain ⟨-, hclose⟩ := tracesExtend_hidClose (markFailed e o s)
  refine ⟨⟨[], by simp⟩, ?_⟩
  rcases raise_cases e o s with ⟨-, hr⟩ | ⟨-, hr⟩ | ⟨-, hr⟩ | ⟨-, hr⟩ <;> rw [hr]
  · exact ⟨[], by simp⟩
  · exact ⟨[], by simp⟩
  · rw [die_hid]; exact hclose
  · rw [fatalIO_hid]; exact hclose

theorem tracesExtend_pollDone (s : State) : TracesExtend 0 s (pollDone s) := by
  obtain ⟨-, -, -, -, hhid, -, -, hout⟩ := pollDone_fields s
  exact ⟨⟨_, hout.trans (slotCycle_out ..)⟩, [], by simp [hhid]⟩

theorem tracesExtend_settle (s : State) : TracesExtend 1 s (settle s) := by
  by_cases hbst : s.brg.bst = .bIdle
  · rw [settle_of_idle hbst]
    rcases react_cases s with ⟨-, -, hr⟩ | ⟨-, -, hr⟩ | ⟨-, -, hr⟩ | ⟨-, -, hr⟩ | ⟨-, -, hr⟩ | ⟨-, -, hr⟩ | ⟨-, hr⟩ <;> rw [hr]
    · exact tracesExtend_of_eq rfl rfl
    · exact tracesExtend_of_eq rfl rfl
    · exact tracesExtend_of_eq rfl rfl
    · exact tracesExtend_raise ..
    · exact (tracesExtend_pollDone s).mono (Nat.zero_le 1)
    · exact tracesExtend_raise ..
    · exact tracesExtend_of_eq rfl rfl
  · rw [settle_of_ne_idle hbst]
    exact tracesExtend_of_eq rfl rfl

/-- One exchange is at most a send and a receive (R96). -/
theorem xchgCalls_length (timeout : Nat) (tx : Report) (a : XchgAnswer) : (xchgCalls timeout tx a).length ≤ 2 := by
  unfold xchgCalls; split <;> simp

theorem tracesExtend_bridgeStep {s : State} {tx : Report} (h : nextReport s.cfg s.brg = some tx) :
    TracesExtend 2 s (bridgeStep s) := by
  rw [bridgeStep_of_next h]
  exact ⟨⟨[], (List.append_nil _).symm⟩, _, rfl, xchgCalls_length ..⟩

theorem tracesExtend_openStep (s : State) : TracesExtend 2 s (openStep s) := by
  have hcall : TracesExtend 1 s (openCalled s) := ⟨⟨[], (List.append_nil _).symm⟩, _, rfl, le_rfl⟩
  rcases openStep_cases s with hr | hr <;> rw [hr]
  · have hpass : TracesExtend 1 (openCalled s) (enterPass (openCalled s)) := tracesExtend_of_eq rfl rfl
    exact hcall.trans hpass
  · exact hcall.trans (tracesExtend_raise ..)

theorem tracesExtend_startStep (s : State) : TracesExtend 1 s (startStep s) := by
  rcases startStep_cases s with hr | ⟨q, hr⟩ | hr <;> rw [hr]
  · exact tracesExtend_of_eq rfl rfl
  · exact tracesExtend_of_eq rfl rfl
  · exact tracesExtend_raise ..

/-- A move without `rst` makes at most two transport calls and a close (R90, R96). -/
theorem Move.tracesExtend {u t : State} (m : Move u t) (hrst : u.world.inp.rst = false) : TracesExtend 3 u t := by
  cases m with
  | reset h _ => simp [h] at hrst
  | opened _ => exact (tracesExtend_openStep u).mono (by decide)
  | exchange tx hnext => exact (tracesExtend_bridgeStep hnext).trans (tracesExtend_settle _)
  | start _ _ => exact (tracesExtend_startStep u).mono (by decide)
  | poll _ _ => exact (tracesExtend_startStep (setSst .sRead u)).mono (by decide)
  | stop _ => exact (tracesExtend_hidClose u).mono (by decide)
  | rest => exact tracesExtend_of_eq rfl rfl

/-- Settles O52, by the moves of a step: an exchange extends `HID` by two calls, the reaction to it by a close. -/
theorem tracesOnlyGrow : Obligations.TracesOnlyGrow := by
  intro s t _ hrst hstep
  simpa [TracesExtend] using (step_move hstep).tracesExtend hrst

end Sys2Proof.Machine
end

section
/-! The views of the state: what reset leaves, the query and its packed forms, the beginning of a step. -/

namespace Sys2Proof.Machine

/-! ### Reset -/

theorem hidClose_handle_of_open {s : State} (h : s.brg.bst ≠ .bClosed) : (hidClose s).world.handle = false := by
  rw [hidClose_of_open h]

/-- With a legal `DEBOUNCE_N` RESET is admitted in every state (R215). -/
theorem exec_reset {s : State} (h : s.world.inp.debounceN ≠ 0#8) : exec .reset s = .next (resetBlock s) := if_neg h

/-- Settles O27, field by field of the reset block. -/
theorem resetValues : Obligations.ResetValues := by
  intro s hn
  have hslots (i : Fin 6) : (resetBlock s).slt.commit.get i = .unknown ∧ (resetBlock s).slt.cand.get i = .unknown ∧
      (resetBlock s).slt.cnt.get i = 0#8 ∧ (resetBlock s).slt.snap.st.get i = .unknown :=
    ⟨Six.get_fill .., Six.get_fill .., Six.get_fill .., Six.get_fill ..⟩
  exact ⟨resetBlock s, exec_reset hn, rfl, rfl, rfl, rfl, rfl, rfl, hslots, rfl, rfl, rfl, rfl, rfl, hidClose_handle_of_open⟩

/-! ### The beginning of a step -/

theorem sameBlock_answerQuery (s : State) : sameBlock s (answerQuery s) := ⟨rfl, rfl, rfl, rfl, rfl, rfl, rfl, rfl⟩

theorem sameBlock_beginStep (s : State) : sameBlock s (beginStep s) := by simp [sameBlock]

@[simp] theorem sample_replies (w : World) : w.sample.replies = w.replies := by
  unfold World.sample; split <;> rfl

theorem beginStep_of_query {s : State} (h : s.world.sample.inp.query = true) :
    beginStep s = answerQuery (sampleInputs s) := if_pos h

theorem beginStep_of_no_query {s : State} (h : s.world.sample.inp.query = false) : beginStep s = sampleInputs s :=
  if_neg (ne_true_of_eq_false h)

/-- Answering a query leaves the inputs as sampled. -/
theorem beginStep_inp (s : State) : (beginStep s).world.inp = s.world.sample.inp := by
  unfold beginStep; split <;> rfl

/-- The reply does not depend on the inputs, so it is that of the state before the step (R165). -/
theorem queryReply_sampleInputs (s : State) : queryReply (sampleInputs s) = queryReply s := rfl

/-- Settles O45: the two ways a step begins, by the query input. -/
theorem beginningAStepChangesNoRegister : Obligations.BeginningAStepChangesNoRegister := by
  intro s
  rw [beginStep_inp]
  refine ⟨sameBlock_beginStep s, fun hq => ?_, fun hq => ?_⟩
  · rw [beginStep_of_query hq, answerQuery_world, queryReply_sampleInputs, sampleInputs_world, sample_replies]
  · rw [beginStep_of_no_query hq, sampleInputs_world, sample_replies]

/-! ### The packed views -/

/-- Above a field of three bits the next field begins. -/
theorem extract_above_field {v : Nat} (hi : BitVec v) (lo : BitVec 3) (k : Nat) :
    (hi ++ lo).extractLsb' (3 * (k + 1)) 3 = hi.extractLsb' (3 * k) 3 := by
  rw [BitVec.extractLsb'_append_eq_of_le (by omega)]
  rfl

/-- The fields of the packed snapshot (R23): `st[i]` in bits 3i+2..3i. -/
theorem packedStates_state (p : Snapshot) (i : Fin 6) :
    p.packedStates.extractLsb' (3 * i.val) 3 = slotCode (p.st.get i) := by
  have lowest {v : Nat} (hi : BitVec v) (lo : BitVec 3) : (hi ++ lo).extractLsb' (3 * 0) 3 = lo :=
    BitVec.extractLsb'_append_eq_right
  have second {v : Nat} (hi : BitVec v) (f a : BitVec 3) : (hi ++ f ++ a).extractLsb' (3 * 1) 3 = f :=
    (extract_above_field _ a 0).trans (lowest hi f)
  have third {v : Nat} (hi : BitVec v) (f a b : BitVec 3) : (hi ++ f ++ a ++ b).extractLsb' (3 * 2) 3 = f :=
    (extract_above_field _ b 1).trans (second hi f a)
  have fourth {v : Nat} (hi : BitVec v) (f a b c : BitVec 3) : (hi ++ f ++ a ++ b ++ c).extractLsb' (3 * 3) 3 = f :=
    (extract_above_field _ c 2).trans (third hi f a b)
  match i with
  | 0 => exact lowest _ _
  | 1 => exact second _ _ _
  | 2 => exact third _ _ _ _
  | 3 => exact fourth _ _ _ _ _
  | 4 => exact (extract_above_field _ _ 3).trans (fourth _ _ _ _ _)
  | 5 => exact (extract_above_field _ _ 4).trans ((extract_above_field _ _ 3).trans (fourth _ _ _ _ _))

/-- `stale` is bit 18 (R23). -/
theorem packedStates_stale (p : Snapshot) : p.packedStates.getLsbD 18 = p.stale := by
  have above {v : Nat} (hi : BitVec v) (lo : BitVec 3) (k : Nat) :
      (hi ++ lo).getLsbD (3 * (k + 1)) = hi.getLsbD (3 * k) := by
    rw [BitVec.getLsbD_append, if_neg (by omega)]
    rfl
  calc p.packedStates.getLsbD 18
      _ = (BitVec.ofBool p.stale).getLsbD 0 :=
        (above _ _ 5).trans <| (above _ _ 4).trans <| (above _ _ 3).trans <| (above _ _ 2).trans <|
          (above _ _ 1).trans (above _ _ 0)
      _ = p.stale := by simp

theorem packed_state (w : Nat) (p : Snapshot) (i : Fin 6) :
    (p.packed w).extractLsb' (3 * i.val) 3 = slotCode (p.st.get i) := by
  rw [← packedStates_state p i]
  exact BitVec.extractLsb'_append_eq_of_add_le (by omega)

theorem packed_stale (w : Nat) (p : Snapshot) : (p.packed w).getLsbD 18 = p.stale := by
  rw [← packedStates_stale p]
  exact BitVec.getLsbD_append

theorem packed_ts (w : Nat) (p : Snapshot) : (p.packed w).extractLsb' 19 w = BitVec.ofNat w p.ts :=
  BitVec.extractLsb'_append_eq_left

theorem errPacked_fields (e : ErrReg) :
    e.packed.extractLsb' 0 3 = errClassCode e.cls ∧ e.packed.extractLsb' 3 3 = outcomeCode e.det :=
  ⟨BitVec.extractLsb'_append_eq_right, BitVec.extractLsb'_append_eq_left⟩

/-- Settles O41: the reply is the three registers read, each packed field stands at its bits, and the code tables are read off. -/
theorem queryReturnsTheSnapshot : Obligations.QueryReturnsTheSnapshot := by
  refine ⟨fun s => ⟨answerQuery s, rfl, sameBlock_answerQuery s, rfl⟩, fun w p => ?_, errPacked_fields, ?_⟩
  · exact ⟨packed_state w p, packed_stale w p, packed_ts w p⟩
  · exact ⟨rfl, rfl, rfl, rfl, rfl⟩

end Sys2Proof.Machine
end

section
/-! A driver operation run to its end against ENV's answers agrees with the big-step view of R117: each phase of the FSM with the
part of `Attempt` that stands for it. -/

namespace Sys2Proof.Machine

/-! ### What one exchange decides, for the FSM and for R117 -/

/-- The outcome with which the response to a command ends the attempt; `none` where it is accepted (R98 to R101). -/
def commandVerdict : XchgResult → Option BusOutcome
  | .accepted => none
  | .busy => some .busy
  | .ioErr => some .ioErr
  | .badSize => some .badSize
  | .noAnswer => some .timeout
  | .status _ => some .timeout
  | .data _ _ => some .timeout
  | .noData => some .timeout

/-- How the response to a status request ends the polls; `none` where they go on (R103 to R106). -/
def pollVerdict : XchgResult → Option PollEnd
  | .status .complete => some .complete
  | .status .errNack => some (.ended .nack)
  | .status .errTimeout => some (.ended .timeout)
  | .ioErr => some (.ended .ioErr)
  | .badSize => some (.ended .badSize)
  | .status .inProgress => none
  | .noAnswer => none
  | .accepted => none
  | .busy => none
  | .data _ _ => none
  | .noData => none

/-- The outcome of a data fetch of `rl` bytes, with the reply bytes it sets (R107). -/
def fetchVerdict (rl : Nat) : XchgResult → BusOutcome × Option (List Byte)
  | .data n bytes => if n.toNat = rl then (.ok, some (bytes.take rl)) else (.lenMismatch, none)
  | .noData => (.lenMismatch, none)
  | .ioErr => (.ioErr, none)
  | .badSize => (.badSize, none)
  | .noAnswer => (.timeout, none)
  | .accepted => (.timeout, none)
  | .busy => (.timeout, none)
  | .status _ => (.timeout, none)

section
variable (c : Config) (a : XchgAnswer) {b : BridgeRegs}

theorem bridgeReact_of_cmd (h : b.bst = .bCmd) :
    bridgeReact c a b = afterCommand c (xchgResult c a (cmdCode c b.op)) b := by
  unfold bridgeReact; rw [h]

theorem bridgeReact_of_stat (h : b.bst = .bStat) :
    bridgeReact c a b = afterStatus c (xchgResult c a c.cmdGetStatus) (countPoll c b) := by
  unfold bridgeReact; rw [h]

theorem bridgeReact_of_data (h : b.bst = .bData) :
    bridgeReact c a b = afterData c (xchgResult c a c.cmdGetData) b := by
  unfold bridgeReact; rw [h]

end

theorem afterCommand_of_no_verdict {c : Config} {x : XchgResult} (b : BridgeRegs) (h : commandVerdict x = none) :
    afterCommand c x b = { b with k := 0, bst := .bStat } := by
  cases x <;> cases h
  rfl

theorem afterCommand_of_verdict {c : Config} {x : XchgResult} {o : BusOutcome} (b : BridgeRegs)
    (h : commandVerdict x = some o) : afterCommand c x b = attemptFail c o b := by
  cases x <;> cases h <;> rfl

/-- The registers of `BRG` where the polls have ended (R104 to R106). -/
def afterPolls (c : Config) (e : PollEnd) (b : BridgeRegs) : BridgeRegs :=
  match e with
  | .complete => if hasRead b.op then { b with bst := .bData } else finish .ok b
  | .ended o => attemptFail c o b

theorem afterStatus_of_verdict {c : Config} {x : XchgResult} {e : PollEnd} (b : BridgeRegs) (h : pollVerdict x = some e) :
    afterStatus c x b = afterPolls c e b := by
  cases x with
  | status st => cases st <;> cases h <;> rfl
  | ioErr | badSize => cases h; rfl
  | noAnswer | accepted | busy | data | noData => cases h

theorem afterStatus_of_no_verdict {c : Config} {x : XchgResult} (b : BridgeRegs) (h : pollVerdict x = none) :
    afterStatus c x b = stillPolling c b := by
  cases x with
  | status st => cases st <;> cases h; rfl
  | ioErr | badSize => cases h
  | noAnswer | accepted | busy | data | noData => rfl

theorem afterData_eq (c : Config) (x : XchgResult) (b : BridgeRegs) :
    afterData c x b
      = attemptFail c (fetchVerdict b.rl x).1 { b with rd := replyBytes (fetchVerdict b.rl x).2 b.rd } := by
  cases x with
  | data n bytes => by_cases h : n.toNat = b.rl <;> simp only [afterData, fetchVerdict, h, if_true, if_false] <;> rfl
  | ioErr | badSize | noAnswer | accepted | busy | status | noData => rfl

/-! ### The big-step view, by verdict -/

section
variable (c : Config) (q : Request) (r : Run)

/-- The exchange of the command report of `q` (R117). -/
def commandExchange : XchgResult × Run :=
  r.exchange c (commandReport c (cmdCode c q.op) q.ta q.w (BitVec.ofNat 8 q.r)) (cmdCode c q.op)

/-- The exchange of a status request (R117). -/
def statusExchange : XchgResult × Run := r.exchange c (statusReport c) c.cmdGetStatus

/-- The exchange of a data request (R117). -/
def dataExchange : XchgResult × Run := r.exchange c (dataReport c) c.cmdGetData

/-- What follows the polls of an attempt (R117). -/
def afterPollEnd : PollEnd → Run → BusOutcome × Option (List Byte) × Run
  | .ended o, r => (o, none, r)
  | .complete, r => fetchData c q r

end

section
variable {c : Config} {q : Request} {r : Run}

theorem attempt_of_verdict {o : BusOutcome} (h : commandVerdict (commandExchange c q r).1 = some o) :
    attempt c q r = (o, none, (commandExchange c q r).2) := by
  unfold commandExchange at *
  unfold attempt
  generalize r.exchange c _ _ = x at *
  obtain ⟨res, r1⟩ := x
  cases res <;> cases h <;> rfl

theorem attempt_of_accepted (h : commandVerdict (commandExchange c q r).1 = none) :
    attempt c q r
      = afterPollEnd c q (pollStatus c c.statusPollMax (commandExchange c q r).2).1
          (pollStatus c c.statusPollMax (commandExchange c q r).2).2 := by
  unfold commandExchange at *
  unfold attempt
  generalize r.exchange c _ _ = x at *
  obtain ⟨res, r1⟩ := x
  cases res <;> cases h
  cases hp : (pollStatus c c.statusPollMax r1).1 <;> simp only [hp, afterPollEnd]

theorem pollStatus_of_verdict {n : Nat} {e : PollEnd} (h : pollVerdict (statusExchange c r).1 = some e) :
    pollStatus c (n + 1) r = (e, (statusExchange c r).2) := by
  unfold statusExchange at *
  unfold pollStatus
  generalize r.exchange c _ _ = x at *
  obtain ⟨res, r1⟩ := x
  cases res with
  | status st => cases st <;> cases h <;> rfl
  | ioErr | badSize => cases h; rfl
  | noAnswer | accepted | busy | data | noData => cases h

theorem pollStatus_of_no_verdict {n : Nat} (h : pollVerdict (statusExchange c r).1 = none) :
    pollStatus c (n + 1) r = pollStatus c n (statusExchange c r).2 := by
  unfold statusExchange at *
  rw [pollStatus]
  generalize r.exchange c _ _ = x at *
  obtain ⟨res, r1⟩ := x
  cases res with
  | status st => cases st <;> cases h; rfl
  | ioErr | badSize => cases h
  | noAnswer | accepted | busy | data | noData => rfl

theorem fetchData_of_write (h : hasRead q.op = false) : fetchData c q r = (.ok, none, r) := by
  simp [fetchData, h]

theorem fetchData_of_read (h : hasRead q.op = true) :
    fetchData c q r
      = ((fetchVerdict q.r (dataExchange c r).1).1, (fetchVerdict q.r (dataExchange c r).1).2, (dataExchange c r).2) := by
  unfold dataExchange
  simp only [fetchData, h, if_true]
  generalize r.exchange c _ _ = x
  obtain ⟨res, r1⟩ := x
  cases res with
  | data n bytes => by_cases hn : n.toNat = q.r <;> simp only [fetchVerdict, hn, if_true, if_false]
  | ioErr | badSize | noAnswer | accepted | busy | status | noData => rfl

theorem attempts_succ_of_final (n : Nat) (h : retryable c.retryOn (attempt c q r).1 = false) :
    attempts c q (n + 1) r = attempt c q r := by
  simp [attempts, h]

theorem attempts_succ_of_retry (n : Nat) (h : retryable c.retryOn (attempt c q r).1 = true) :
    attempts c q (n + 1) r = attempts c q n (attempt c q r).2.2 := by
  simp [attempts, h]

end

/-! ### The reply of the big-step view -/

/-- An outcome of an operation with the reply bytes it sets: bytes come with a read that ended OK, and with nothing else. -/
inductive Reply (c : Config) (q : Request) : BusOutcome → Option (List Byte) → Prop
  | failed {o : BusOutcome} (h : o ≠ .ok) : Reply c q o none
  | written (h : hasRead q.op = false) : Reply c q .ok none
  | read (h : hasRead q.op = true) {bytes : List Byte} (hlen : bytes.length + 4 = c.reportSize) :
      Reply c q .ok (some (bytes.take q.r))

section
variable {c : Config} {q : Request}

theorem commandVerdict_ne_ok {x : XchgResult} {o : BusOutcome} (h : commandVerdict x = some o) : o ≠ .ok := by
  cases x <;> cases h <;> decide

theorem pollVerdict_ne_ok {x : XchgResult} {o : BusOutcome} (h : pollVerdict x = some (.ended o)) : o ≠ .ok := by
  cases x with
  | status st => cases st <;> cases h <;> decide
  | ioErr | badSize => cases h; decide
  | noAnswer | accepted | busy | data | noData => cases h

theorem pollStatus_ne_ok {n : Nat} {r : Run} {o : BusOutcome} (h : (pollStatus c n r).1 = .ended o) : o ≠ .ok := by
  induction n generalizing r with
  | zero => cases h; decide
  | succ n ih =>
    cases hv : pollVerdict (statusExchange c r).1 with
    | some e =>
      rw [pollStatus_of_verdict hv] at h
      cases h
      exact pollVerdict_ne_ok hv
    | none =>
      rw [pollStatus_of_no_verdict hv] at h
      exact ih h

theorem fetchData_reply (r : Run) : Reply c q (fetchData c q r).1 (fetchData c q r).2.1 := by
  cases hq : hasRead q.op with
  | false => rw [fetchData_of_write hq]; exact .written hq
  | true =>
    rw [fetchData_of_read hq]
    cases hx : (dataExchange c r).1 with
    | data n bytes =>
      by_cases hn : n.toNat = q.r <;> simp only [fetchVerdict, hn, if_true, if_false]
      · exact .read hq (xchgResult_data_length hx)
      · exact .failed nofun
    | ioErr | badSize | noAnswer | accepted | busy | status | noData => exact .failed nofun

theorem attempt_reply (r : Run) : Reply c q (attempt c q r).1 (attempt c q r).2.1 := by
  cases hv : commandVerdict (commandExchange c q r).1 with
  | some o => rw [attempt_of_verdict hv]; exact .failed (commandVerdict_ne_ok hv)
  | none =>
    rw [attempt_of_accepted hv]
    cases hp : (pollStatus c c.statusPollMax (commandExchange c q r).2).1 with
    | ended o => exact .failed (pollStatus_ne_ok hp)
    | complete => exact fetchData_reply (pollStatus c c.statusPollMax (commandExchange c q r).2).2

theorem attempts_reply (n : Nat) (r : Run) : Reply c q (attempts c q n r).1 (attempts c q n r).2.1 := by
  induction n generalizing r with
  | zero => exact attempt_reply r
  | succ n ih =>
    cases hretry : retryable c.retryOn (attempt c q r).1 with
    | false => rw [attempts_succ_of_final n hretry]; exact attempt_reply r
    | true => rw [attempts_succ_of_retry n hretry]; exact ih (attempt c q r).2.2

theorem bigStepOp_reply (w : World) : Reply c q (bigStepOp c q w).1 (bigStepOp c q w).2.1 := attempts_reply _ _

/-- A retried outcome has set no reply byte: OK is never retried (R109). -/
theorem Reply.none_of_retryable {o : BusOutcome} {bytes : Option (List Byte)} (h : Reply c q o bytes)
    (hr : retryable c.retryOn o = true) : bytes = none := by
  cases h with
  | failed | written => rfl
  | read => cases hr

end

/-! ### Running the bridge -/

/-- At most `n` exchanges lead from `s` to `t`. -/
def RunsWithin (n : Nat) (s t : State) : Prop := ∃ m ≤ n, runBridge m s = t

theorem runBridge_of_not_next (n : Nat) {s : State} (h : exchangeNext s = false) : runBridge n s = s := by
  cases n <;> simp [runBridge, h]

theorem runBridge_succ (n : Nat) {s : State} (h : exchangeNext s = true) :
    runBridge (n + 1) s = runBridge n (bridgeStep s) := by
  simp [runBridge, h]

theorem runBridge_add (m n : Nat) (s : State) : runBridge (m + n) s = runBridge n (runBridge m s) := by
  induction m generalizing s with
  | zero => rw [Nat.zero_add]; rfl
  | succ m ih =>
    cases h : exchangeNext s with
    | false => simp only [runBridge_of_not_next _ h]
    | true => rw [Nat.add_right_comm, runBridge_succ _ h, runBridge_succ _ h, ih]

theorem RunsWithin.refl (n : Nat) (s : State) : RunsWithin n s s := ⟨0, Nat.zero_le n, rfl⟩

theorem RunsWithin.trans {m n : Nat} {s t u : State} (h : RunsWithin m s t) (g : RunsWithin n t u) :
    RunsWithin (m + n) s u := by
  obtain ⟨i, hi, rfl⟩ := h
  obtain ⟨j, hj, rfl⟩ := g
  exact ⟨i + j, Nat.add_le_add hi hj, runBridge_add i j s⟩

theorem RunsWithin.mono {m n : Nat} {s t : State} (h : RunsWithin m s t) (hmn : m ≤ n) : RunsWithin n s t := by
  obtain ⟨i, hi, hrun⟩ := h
  exact ⟨i, hi.trans hmn, hrun⟩

/-- Fuel beyond the end of the operation is not used. -/
theorem RunsWithin.runBridge_eq {n : Nat} {s t : State} (h : RunsWithin n s t) (ht : exchangeNext t = false) :
    runBridge n s = t := by
  obtain ⟨m, hm, rfl⟩ := h
  rw [← Nat.add_sub_cancel' hm, runBridge_add, runBridge_of_not_next _ ht]

/-! ### The phases of an attempt -/

/-- The state in which, since `s`, the run `r` has been made and has left `BRG` with the registers `b`. -/
def afterRun (s : State) (r : Run) (b : BridgeRegs) : State :=
  { s with brg := b, hid := s.hid ++ r.calls, world := r.world }

section
variable (s : State) (r : Run) {b : BridgeRegs}

theorem exchange_runs {tx : Report} (code : Byte) (h : nextReport s.cfg b = some tx) :
    RunsWithin 1 (afterRun s r b)
      (afterRun s (r.exchange s.cfg tx code).2 (bridgeReact s.cfg r.world.xchgAnswer b)) := by
  have hnext : nextReport (afterRun s r b).cfg (afterRun s r b).brg = some tx := h
  refine ⟨1, le_rfl, ?_⟩
  rw [runBridge_succ 0 (by simp [exchangeNext, hnext]), runBridge, bridgeStep_of_next hnext]
  simp [afterRun, exchanged, Run.exchange]

/-- The exchange in `B_CMD` (R97). -/
theorem command_runs (h : b.bst = .bCmd) :
    RunsWithin 1 (afterRun s r b)
      (afterRun s (commandExchange s.cfg (latchedRequest b) r).2
        (afterCommand s.cfg (commandExchange s.cfg (latchedRequest b) r).1 b)) := by
  have hrun := exchange_runs s r (cmdCode s.cfg b.op) ((nextReport_eq_some_iff ..).2 (.inl ⟨h, rfl⟩))
  rwa [bridgeReact_of_cmd _ _ h] at hrun

/-- The exchange in `B_STAT` (R102). -/
theorem status_runs (h : b.bst = .bStat) (hk : b.k < s.cfg.statusPollMax) :
    RunsWithin 1 (afterRun s r b)
      (afterRun s (statusExchange s.cfg r).2
        (afterStatus s.cfg (statusExchange s.cfg r).1 { b with k := b.k + 1 })) := by
  have hrun := exchange_runs s r s.cfg.cmdGetStatus ((nextReport_eq_some_iff ..).2 (.inr (.inl ⟨h, hk, rfl⟩)))
  rwa [bridgeReact_of_stat _ _ h, countPoll_of_lt hk] at hrun

/-- The exchange in `B_DATA` (R107). -/
theorem data_runs (h : b.bst = .bData) :
    RunsWithin 1 (afterRun s r b)
      (afterRun s (dataExchange s.cfg r).2 (afterData s.cfg (dataExchange s.cfg r).1 b)) := by
  have hrun := exchange_runs s r s.cfg.cmdGetData ((nextReport_eq_some_iff ..).2 (.inr (.inr ⟨h, rfl⟩)))
  rwa [bridgeReact_of_data _ _ h] at hrun

end

/-- With `n` polls left, the polls of the FSM are those of R117 (R102 to R106). -/
theorem polls_run (s : State) (n : Nat) (r : Run) {b : BridgeRegs} (hbst : b.bst = .bStat)
    (hk : b.k + n = s.cfg.statusPollMax) :
    ∃ k, RunsWithin n (afterRun s r (stillPolling s.cfg b))
      (afterRun s (pollStatus s.cfg n r).2 (afterPolls s.cfg (pollStatus s.cfg n r).1 { b with k := k })) := by
  induction n generalizing r b with
  | zero =>
    refine ⟨b.k, ?_⟩
    rw [stillPolling, if_pos (by omega)]
    exact .refl ..
  | succ n ih =>
    have hstep := status_runs s r hbst (by omega)
    rw [stillPolling, if_neg (by omega)]
    cases hv : pollVerdict (statusExchange s.cfg r).1 with
    | some e =>
      rw [afterStatus_of_verdict _ hv] at hstep
      rw [pollStatus_of_verdict hv]
      exact ⟨b.k + 1, hstep.mono (by omega)⟩
    | none =>
      rw [afterStatus_of_no_verdict _ hv] at hstep
      rw [pollStatus_of_no_verdict hv]
      obtain ⟨k, hrest⟩ := ih (statusExchange s.cfg r).2 (b := { b with k := b.k + 1 }) hbst (by simp only; omega)
      exact ⟨k, (hstep.trans hrest).mono (by omega)⟩

/-- The state in which, since `s`, an attempt with the result `x` has been made: retried or finished (R108, R109). -/
def attemptEnded (s : State) (x : BusOutcome × Option (List Byte) × Run) (b : BridgeRegs) : State :=
  afterRun s x.2.2 (attemptFail s.cfg x.1 { b with rd := replyBytes x.2.1 b.rd })

/-- From the end of the polls to the end of the attempt (R104 to R107). -/
theorem afterPolls_runs (s : State) (r : Run) (e : PollEnd) (b : BridgeRegs) :
    RunsWithin 1 (afterRun s r (afterPolls s.cfg e b))
      (attemptEnded s (afterPollEnd s.cfg (latchedRequest b) e r) b) := by
  cases e with
  | ended o => exact .refl ..
  | complete =>
    cases hq : hasRead b.op with
    | false =>
      simp only [afterPollEnd, fetchData_of_write (q := latchedRequest b) hq, afterPolls, hq]
      exact .refl ..
    | true =>
      have hstep := data_runs s r (b := { b with bst := .bData }) rfl
      rw [afterData_eq] at hstep
      simp only [afterPollEnd, fetchData_of_read (q := latchedRequest b) hq, afterPolls, hq]
      exact hstep

/-- An attempt of the FSM is the attempt of R117. -/
theorem attempt_runs (s : State) (r : Run) {b : BridgeRegs} (hbst : b.bst = .bCmd) (hmax : 1 ≤ s.cfg.statusPollMax) :
    ∃ k, RunsWithin (s.cfg.statusPollMax + 2) (afterRun s r b)
      (attemptEnded s (attempt s.cfg (latchedRequest b) r) { b with k := k }) := by
  have hcmd := command_runs s r hbst
  cases hv : commandVerdict (commandExchange s.cfg (latchedRequest b) r).1 with
  | some o =>
    rw [afterCommand_of_verdict _ hv] at hcmd
    rw [attempt_of_verdict hv]
    exact ⟨b.k, hcmd.mono (by omega)⟩
  | none =>
    rw [afterCommand_of_no_verdict _ hv] at hcmd
    rw [attempt_of_accepted hv]
    obtain ⟨k, hpolls⟩ := polls_run s s.cfg.statusPollMax (commandExchange s.cfg (latchedRequest b) r).2
      (b := { b with k := 0, bst := .bStat }) rfl (Nat.zero_add _)
    rw [stillPolling, if_neg (by simp only; omega)] at hpolls
    exact ⟨k, ((hcmd.trans hpolls).trans (afterPolls_runs ..)).mono (by omega)⟩

/-! ### A whole operation -/

/-- The state in which, since `s`, an operation with the result `x` has been made and has ended (R108, R111). -/
def operationEnded (s : State) (x : BusOutcome × Option (List Byte) × Run) (b : BridgeRegs) : State :=
  afterRun s x.2.2 (finish x.1 { b with rd := replyBytes x.2.1 b.rd })

theorem attemptEnded_of_final {s : State} {x : BusOutcome × Option (List Byte) × Run} {b : BridgeRegs}
    (h : retryable s.cfg.retryOn x.1 = false ∨ b.tries.toNat = Config.retryMax) :
    attemptEnded s x b = operationEnded s x b := by
  have hfinal : ¬ (retryable s.cfg.retryOn x.1 = true ∧ b.tries.toNat < Config.retryMax) := by
    rintro ⟨hretry, hlt⟩
    rcases h with h | h
    · rw [h] at hretry; cases hretry
    · omega
  unfold attemptEnded operationEnded attemptFail
  rw [if_neg hfinal]

theorem attemptEnded_of_retry {s : State} {x : BusOutcome × Option (List Byte) × Run} {b : BridgeRegs}
    (hretry : retryable s.cfg.retryOn x.1 = true) (htries : b.tries.toNat < Config.retryMax) (hnone : x.2.1 = none) :
    attemptEnded s x b = afterRun s x.2.2 { b with tries := b.tries + 1#1, bst := .bCmd } := by
  simp [attemptEnded, attemptFail, hretry, htries, hnone, replyBytes]

/-- With `n` retries left, the attempts of the FSM are those of R117 (R109 to R111). -/
theorem attempts_run (s : State) (n : Nat) (r : Run) {b : BridgeRegs} (hbst : b.bst = .bCmd)
    (htries : b.tries.toNat + n = Config.retryMax) (hmax : 1 ≤ s.cfg.statusPollMax) :
    ∃ tries k, RunsWithin ((1 + n) * (s.cfg.statusPollMax + 2)) (afterRun s r b)
      (operationEnded s (attempts s.cfg (latchedRequest b) n r) { b with tries := tries, k := k }) := by
  induction n generalizing r b with
  | zero =>
    obtain ⟨k, hrun⟩ := attempt_runs s r hbst hmax
    rw [attemptEnded_of_final (b := { b with k := k }) (.inr htries)] at hrun
    exact ⟨b.tries, k, hrun.mono (by omega)⟩
  | succ n ih =>
    obtain ⟨k, hrun⟩ := attempt_runs s r hbst hmax
    cases hretry : retryable s.cfg.retryOn (attempt s.cfg (latchedRequest b) r).1 with
    | false =>
      rw [attemptEnded_of_final (.inl hretry)] at hrun
      rw [attempts_succ_of_final n hretry]
      exact ⟨b.tries, k, hrun.mono (Nat.le_mul_of_pos_left _ (by omega))⟩
    | true =>
      have hfirst : b.tries.toNat < Config.retryMax := by omega
      have hcount : (b.tries + 1#1).toNat + n = Config.retryMax := by
        rw [BitVec.toNat_add_of_lt (by simpa using hfirst)]
        simpa [Nat.add_assoc, Nat.add_comm 1 n] using htries
      have hnone := (attempt_reply r).none_of_retryable hretry
      rw [attemptEnded_of_retry (b := { b with k := k }) hretry hfirst hnone] at hrun
      rw [attempts_succ_of_retry n hretry]
      obtain ⟨tries, k2, hrest⟩ := ih (attempt s.cfg (latchedRequest b) r).2.2
        (b := { b with k := k, tries := b.tries + 1#1, bst := .bCmd }) rfl hcount
      exact ⟨tries, k2, (hrun.trans hrest).mono (by rw [← one_add_mul, Nat.add_comm n 1])⟩

/-- A driver operation is the big-step operation of R117: it ends with its outcome and its reply, having made its transport
calls and consumed its answers; of the other registers of `BRG` it leaves the latch loaded. -/
theorem driverOp_eq_bigStepOp {s : State} {q : Request} (hq : argsOk s.cfg q = true) (hmax : 1 ≤ s.cfg.statusPollMax)
    (hpay : 4 ≤ s.cfg.maxPayload) :
    ∃ tries k, driverOp q s
      = operationEnded s (bigStepOp s.cfg q s.world) { startOp s.cfg q s.brg with tries := tries, k := k } := by
  obtain ⟨tries, k, hrun⟩ := attempts_run s Config.retryMax { world := s.world, calls := [] }
    (b := startOp s.cfg q s.brg) rfl (Nat.zero_add _) hmax
  rw [latchedRequest_startOp s.brg hq hpay] at hrun
  have hstart : afterRun s { world := s.world, calls := [] } (startOp s.cfg q s.brg)
      = setBrg (startOp s.cfg q s.brg) s := by
    simp [afterRun, setBrg]
  rw [hstart] at hrun
  exact ⟨tries, k, hrun.runBridge_eq rfl⟩

/-- The result latch after a driver operation (R18, R117). -/
theorem driverOp_result {s : State} {q : Request} (hq : argsOk s.cfg q = true) (hmax : 1 ≤ s.cfg.statusPollMax)
    (hpay : 4 ≤ s.cfg.maxPayload) :
    (driverOp q s).brg.res = (bigStepOp s.cfg q s.world).1 ∧
    (driverOp q s).brg.rd = replyBytes (bigStepOp s.cfg q s.world).2.1 s.brg.rd := by
  obtain ⟨tries, k, hrun⟩ := driverOp_eq_bigStepOp hq hmax hpay
  rw [hrun]
  exact ⟨rfl, rfl⟩

end Sys2Proof.Machine
end

section
/-! The expander operations: INIT_DIR and INIT_PU as driver writes, READPORT as a write-then-read with a capture. -/

namespace Sys2Proof.Machine

/-- An admitted request in `B_IDLE` runs the whole operation (R91, R117). -/
theorem request_of_idle {s : State} {q : Request} (hbst : s.brg.bst = .bIdle) (hq : argsOk s.cfg q = true) :
    request q s = .next (driverOp q s) := by
  simp [request, hbst, hq]

/-- The write of a 16-bit expander register is in bounds (R44, R91). -/
theorem argsOk_memWrite_halves {c : Config} (reg : Byte) (v : BitVec 16) (hta : c.expAddr.toNat ≤ 0x7F)
    (hpay : 4 ≤ c.maxPayload) : argsOk c (memWrite c reg (halves v)) = true :=
  (argsOk_writeRequest ..).2 ⟨hta, by simp [halves], by simp [halves]; omega⟩

/-- Settles O18: both operations request the write of register address and halves, which is admitted. -/
theorem initWritesExpandToDriverWrites : Obligations.InitWritesExpandToDriverWrites := by
  intro s hbst hta hpay
  have hwrite (reg : Byte) (v : BitVec 16) :
      request (memWrite s.cfg reg (halves v)) s = .next (driverOp (memWrite s.cfg reg (halves v)) s) :=
    request_of_idle hbst (argsOk_memWrite_halves reg v hta hpay)
  exact ⟨⟨_, hwrite s.cfg.regDir s.cfg.dirAllInput, driverOp_onlyBridge .., hwrite ..⟩,
    ⟨_, hwrite s.cfg.regPullup s.cfg.pullupAllOn, driverOp_onlyBridge .., hwrite ..⟩⟩

/-! ### The capture -/

theorem capturePort_of_ok {s : State} (h : s.brg.res = .ok) : capturePort s = setPort (assemblePort s.brg.rd) s := if_pos h

theorem capturePort_of_not_ok {s : State} (h : s.brg.res ≠ .ok) : capturePort s = s := if_neg h

/-- The capture writes `PORT` alone (R134, R135). -/
theorem capturePort_eq (s : State) : capturePort s = { s with port := (capturePort s).port } := by
  unfold capturePort; split <;> rfl

theorem capturePort_brg (s : State) : (capturePort s).brg = s.brg := by
  rw [capturePort_eq]

/-- READPORT is the request of its write-then-read, with the capture at its end (R133). -/
theorem exec_readPort_of_next {s t : State} (h : request (readPortRequest s.cfg) s = .next t) :
    exec .readPort s = .next (capturePort t) := by
  change execReadPort s = _
  unfold execReadPort
  rw [h]

/-- The first reply byte is the low half of `PORT`, the second the high half (R45, R134). -/
theorem assemblePort_halves (a b : Byte) (rest : List Byte) :
    (assemblePort (a :: b :: rest)).extractLsb' 0 8 = a ∧ (assemblePort (a :: b :: rest)).extractLsb' 8 8 = b :=
  ⟨BitVec.extractLsb'_append_eq_right, BitVec.extractLsb'_append_eq_left⟩

/-- A read of two bytes that ended OK has brought two bytes: the report has room for more (R5, R107). -/
theorem Reply.two_bytes {c : Config} {q : Request} {bytes : Option (List Byte)} (h : Reply c q .ok bytes)
    (hc : c.legal = true) (hread : hasRead q.op = true) (hr : q.r = 2) : ∃ a b : Byte, bytes = some [a, b] := by
  have hsize := legal_reportSize hc
  cases h with
  | failed hne => exact absurd rfl hne
  | written hwrite => rw [hread] at hwrite; cases hwrite
  | @read _ data hlen =>
    match data, hlen with
    | [], hlen | [_], hlen => simp at hlen; omega
    | a :: b :: _, _ => exact ⟨a, b, by simp [hr]⟩

/-- Settles O19: the request is admitted and runs as the big-step write-then-read, whose reply on OK is two bytes; the capture
assembles them. -/
theorem readPortCapturesLowByteFirst : Obligations.ReadPortCapturesLowByteFirst := by
  intro s hbst hlegal
  have hq := argsOk_readPortRequest hlegal
  have hrun : request (readPortRequest s.cfg) s = .next (driverOp (readPortRequest s.cfg) s) := request_of_idle hbst hq
  obtain ⟨hres, hrd⟩ := driverOp_result hq (legal_statusPollMax hlegal) (legal_four_le_maxPayload hlegal)
  have honly := driverOp_onlyBridge (readPortRequest s.cfg) s
  refine ⟨_, _, exec_readPort_of_next hrun, hrun, capturePort_eq _, honly, ?_, ?_, ?_⟩
  · rw [capturePort_brg]; exact hres
  · intro hok
    rw [capturePort_brg] at hok ⊢
    have hreply := bigStepOp_reply (c := s.cfg) (q := readPortRequest s.cfg) s.world
    rw [← hres, hok] at hreply
    obtain ⟨a, b, hbytes⟩ := hreply.two_bytes hlegal rfl rfl
    rw [hbytes] at hrd
    obtain ⟨hlow, hhigh⟩ := assemblePort_halves a b (s.brg.rd.drop 2)
    rw [capturePort_of_ok hok, setPort_port, hrd]
    exact ⟨a, b, rfl, hbytes, hlow, hhigh⟩
  · intro hfail
    rw [capturePort_brg] at hfail
    obtain ⟨-, -, hport, -⟩ := honly
    rw [capturePort_of_not_ok hfail, hport]

end Sys2Proof.Machine
end

section
/-! Command reports: what the decoder accepts on each of the six codes is exactly a command's encoding (R60 to R67). -/

namespace Sys2Proof

open Machine Laws

/-! ### Fields -/

/-- The two byte orders of a speed are inverse (R46). -/
theorem speedBytes_speedOf (b0 b1 b2 b3 : Byte) : speedBytes (speedOf b0 b1 b2 b3) = [b0, b1, b2, b3] := by
  have h0 : (speedOf b0 b1 b2 b3).extractLsb' 0 8 = b0 := BitVec.extractLsb'_append_eq_right
  have h1 : (speedOf b0 b1 b2 b3).extractLsb' 8 8 = b1 :=
    (BitVec.extractLsb'_append_eq_of_le (by decide)).trans BitVec.extractLsb'_append_eq_right
  have h2 : (speedOf b0 b1 b2 b3).extractLsb' 16 8 = b2 :=
    (BitVec.extractLsb'_append_eq_of_le (by decide)).trans <|
      (BitVec.extractLsb'_append_eq_of_le (by decide)).trans BitVec.extractLsb'_append_eq_right
  have h3 : (speedOf b0 b1 b2 b3).extractLsb' 24 8 = b3 :=
    (BitVec.extractLsb'_append_eq_of_le (by decide)).trans <|
      (BitVec.extractLsb'_append_eq_of_le (by decide)).trans BitVec.extractLsb'_append_eq_left
  simp only [speedBytes, h0, h1, h2, h3]

theorem speedOf_extract (v : BitVec 32) :
    speedOf (v.extractLsb' 0 8) (v.extractLsb' 8 8) (v.extractLsb' 16 8) (v.extractLsb' 24 8) = v := by
  unfold speedOf
  rw [BitVec.extractLsb'_append_extractLsb'_eq_extractLsb' (by decide),
    BitVec.extractLsb'_append_extractLsb'_eq_extractLsb' (by decide),
    BitVec.extractLsb'_append_extractLsb'_eq_extractLsb' (by decide)]
  exact BitVec.extractLsb'_eq_self

theorem allPad_iff {c : Config} {bs : List Byte} : allPad c bs = true ↔ bs = List.replicate bs.length c.pad := by
  simp [allPad, List.eq_replicate_iff]

/-- A seven-bit target leaves bit 7 of its address byte clear (R60). -/
theorem msb_setWidth_target (ta : BitVec 7) : (ta.setWidth 8).msb = false := by
  simp [BitVec.msb_setWidth]

theorem setWidth_target_address (ta : BitVec 7) : (ta.setWidth 8).setWidth 7 = ta := by simp

/-- An address byte with bit 7 clear is the byte of its target (R60). -/
theorem setWidth_address_of_msb {ta : Byte} (h : ta.msb = false) : (ta.setWidth 7).setWidth 8 = ta := by
  have := BitVec.msb_eq_false_iff_two_mul_lt.1 h
  bv_omega

/-- The payload the decoder reads from a full body is the one whose length byte and padding the body shows (R60). -/
theorem payloadOf_eq_ok_iff {c : Config} {wl : Byte} {body wd : List Byte} (hbody : body.length = c.maxPayload) :
    payloadOf c wl body = .ok wd ↔
      wl.toNat = wd.length ∧ wd.length ≤ c.maxPayload ∧ body = wd ++ List.replicate (c.maxPayload - wd.length) c.pad := by
  unfold payloadOf
  constructor
  · intro h
    split at h
    · cases h
    · split at h <;> cases h
      next hle hpad =>
        have hlen : (body.take wl.toNat).length = wl.toNat := by simp; omega
        have hrest := allPad_iff.1 hpad
        rw [List.length_drop, hbody] at hrest
        refine ⟨hlen.symm, by omega, ?_⟩
        rw [hlen, ← hrest, List.take_append_drop]
  · rintro ⟨hwl, hle, rfl⟩
    simp [hwl, Nat.not_lt.2 hle, allPad_iff]

/-! ### What the decoder accepts, code by code -/

/-- The decoder goes on only where a check does not reject. -/
@[simp] theorem ite_rejected_eq_ok_iff {p : Prop} [Decidable p] {e : DecodeError} {d : Decoded} {i : Instr} :
    (if p then .rejected e else d) = Decoded.ok i ↔ ¬p ∧ d = .ok i := by
  split <;> simp [*]

@[simp] theorem ite_else_rejected_eq_ok_iff {p : Prop} [Decidable p] {e : DecodeError} {d : Decoded} {i : Instr} :
    (if p then d else .rejected e) = Decoded.ok i ↔ p ∧ d = .ok i := by
  split <;> simp [*]

theorem legal_pad {c : Config} (hc : c.legal = true) : c.pad = 0x00#8 := by
  simp only [Config.legal, Bool.and_eq_true, decide_eq_true_eq] at hc
  tauto

/-- Each command code differs from those the decoder tests before it (R5). -/
theorem legal_cmd_ne {c : Config} (hc : c.legal = true) :
    c.cmdI2cWrite ≠ c.cmdSetSpeed ∧
    (c.cmdI2cRead ≠ c.cmdI2cWrite ∧ c.cmdI2cRead ≠ c.cmdSetSpeed) ∧
    (c.cmdI2cWriteRead ≠ c.cmdI2cRead ∧ c.cmdI2cWriteRead ≠ c.cmdI2cWrite ∧ c.cmdI2cWriteRead ≠ c.cmdSetSpeed) ∧
    (c.cmdGetStatus ≠ c.cmdI2cWriteRead ∧ c.cmdGetStatus ≠ c.cmdI2cRead ∧ c.cmdGetStatus ≠ c.cmdI2cWrite ∧
      c.cmdGetStatus ≠ c.cmdSetSpeed) ∧
    (c.cmdGetData ≠ c.cmdGetStatus ∧ c.cmdGetData ≠ c.cmdI2cWriteRead ∧ c.cmdGetData ≠ c.cmdI2cRead ∧
      c.cmdGetData ≠ c.cmdI2cWrite ∧ c.cmdGetData ≠ c.cmdSetSpeed) := by
  have h := List.nodup_reverse.2 (legal_cmd hc)
  simp only [List.reverse_cons, List.reverse_nil, List.nil_append, List.cons_append, List.nodup_cons, List.mem_cons,
    List.not_mem_nil, not_or, or_false] at h
  tauto

section
variable {c : Config} {ta wl rl : Byte} {body : List Byte} {i : Instr}

/-- A body of `MAX_WR` bytes makes a report of `REPORT_SIZE` bytes (R41, R60). -/
theorem header_length (hc : c.legal = true) (hbody : body.length = c.maxPayload) (code : Byte) :
    (code :: ta :: wl :: rl :: body).length = c.reportSize := by
  simp only [List.length_cons, hbody, legal_maxPayload hc]

theorem allPad_body_iff (hbody : body.length = c.maxPayload) :
    allPad c body = true ↔ body = List.replicate c.maxPayload c.pad := by
  rw [allPad_iff, hbody]

theorem decodeCommand_setSpeed_iff (hc : c.legal = true) (hbody : body.length = c.maxPayload) :
    decodeCommand c (c.cmdSetSpeed :: ta :: wl :: rl :: body) = .ok i ↔
      (ta = 0#8 ∧ wl = 4#8 ∧ rl = 0#8) ∧
        ∃ hz, body = speedBytes hz ++ List.replicate (c.maxPayload - 4) c.pad ∧ i = .setSpeed hz := by
  have hlen := header_length (ta := ta) (wl := wl) (rl := rl) hc hbody c.cmdSetSpeed
  have hmax := legal_maxPayload hc
  have hsize := legal_reportSize hc
  match body, hbody with
  | b0 :: b1 :: b2 :: b3 :: tail, hbody =>
    have htail : c.maxPayload - 4 = tail.length := by simp only [List.length_cons] at hbody; omega
    have hspeed : (∃ hz, b0 :: b1 :: b2 :: b3 :: tail = speedBytes hz ++ List.replicate tail.length c.pad ∧
        i = .setSpeed hz) ↔ tail = List.replicate tail.length c.pad ∧ .setSpeed (speedOf b0 b1 b2 b3) = i := by
      constructor
      · rintro ⟨hz, hbytes, rfl⟩
        obtain ⟨rfl, rfl, rfl, rfl, hpad⟩ : b0 = hz.extractLsb' 0 8 ∧ b1 = hz.extractLsb' 8 8 ∧
            b2 = hz.extractLsb' 16 8 ∧ b3 = hz.extractLsb' 24 8 ∧ tail = List.replicate tail.length c.pad := by
          simpa [speedBytes] using hbytes
        exact ⟨hpad, by rw [speedOf_extract]⟩
      · rintro ⟨hpad, rfl⟩
        exact ⟨_, by rw [speedBytes_speedOf, ← hpad]; rfl, rfl⟩
    simp [decodeCommand, hlen, htail, hspeed, allPad_iff]
  | [], hbody | [_], hbody | [_, _], hbody | [_, _, _], hbody =>
    simp only [List.length_cons, List.length_nil] at hbody; omega

theorem decodeCommand_i2cWrite_iff (hc : c.legal = true) (hbody : body.length = c.maxPayload) :
    decodeCommand c (c.cmdI2cWrite :: ta :: wl :: rl :: body) = .ok i ↔
      ta.msb = false ∧ rl = 0#8 ∧ ∃ wd, payloadOf c wl body = .ok wd ∧ i = .i2cWrite (ta.setWidth 7) wd := by
  cases hpay : payloadOf c wl body <;>
    simp [decodeCommand, header_length hc hbody, legal_cmd_ne hc, hpay, @eq_comm _ i]

theorem decodeCommand_i2cRead_iff (hc : c.legal = true) (hbody : body.length = c.maxPayload) :
    decodeCommand c (c.cmdI2cRead :: ta :: wl :: rl :: body) = .ok i ↔
      ta.msb = false ∧ wl = 0#8 ∧ body = List.replicate c.maxPayload c.pad ∧ i = .i2cRead (ta.setWidth 7) rl := by
  simp [decodeCommand, header_length hc hbody, legal_cmd_ne hc, allPad_body_iff hbody, @eq_comm _ i]

theorem decodeCommand_i2cWriteRead_iff (hc : c.legal = true) (hbody : body.length = c.maxPayload) :
    decodeCommand c (c.cmdI2cWriteRead :: ta :: wl :: rl :: body) = .ok i ↔
      ta.msb = false ∧ ∃ wd, payloadOf c wl body = .ok wd ∧ i = .i2cWriteRead (ta.setWidth 7) wd rl := by
  cases hpay : payloadOf c wl body <;>
    simp [decodeCommand, header_length hc hbody, legal_cmd_ne hc, hpay, @eq_comm _ i]

theorem decodeCommand_getStatus_iff (hc : c.legal = true) (hbody : body.length = c.maxPayload) :
    decodeCommand c (c.cmdGetStatus :: ta :: wl :: rl :: body) = .ok i ↔
      (ta = 0#8 ∧ wl = 0#8 ∧ rl = 0#8) ∧ body = List.replicate c.maxPayload c.pad ∧ i = .getStatus := by
  simp [decodeCommand, header_length hc hbody, legal_cmd_ne hc, allPad_body_iff hbody, @eq_comm _ i]

theorem decodeCommand_getData_iff (hc : c.legal = true) (hbody : body.length = c.maxPayload) :
    decodeCommand c (c.cmdGetData :: ta :: wl :: rl :: body) = .ok i ↔
      (ta = 0#8 ∧ wl = 0#8 ∧ rl = 0#8) ∧ body = List.replicate c.maxPayload c.pad ∧ i = .getData := by
  simp [decodeCommand, header_length hc hbody, legal_cmd_ne hc, allPad_body_iff hbody, @eq_comm _ i]

end

/-- An accepted report has a header with one of the six codes, and a full body (R60, R78 (a)). -/
theorem header_of_decodeCommand {c : Config} (hc : c.legal = true) {tx : Report} {i : Instr}
    (h : decodeCommand c tx = .ok i) :
    ∃ code ta wl rl body, tx = code :: ta :: wl :: rl :: body ∧ body.length = c.maxPayload ∧
      (code = c.cmdSetSpeed ∨ code = c.cmdI2cWrite ∨ code = c.cmdI2cRead ∨ code = c.cmdI2cWriteRead ∨
        code = c.cmdGetStatus ∨ code = c.cmdGetData) := by
  have hmax := legal_maxPayload hc
  unfold decodeCommand at h
  rw [ite_rejected_eq_ok_iff] at h
  obtain ⟨hlen, h⟩ := h
  split at h
  next code ta wl rl body =>
    refine ⟨code, ta, wl, rl, body, rfl, by simp at hlen; omega, ?_⟩
    by_contra hno
    simp only [not_or] at hno
    simp [hno] at h
  · cases h

/-! ### Decoding and encoding are inverse on command reports -/

/-- The two requests without operands are command reports of an empty payload (R66, R67): `PAD` is zero (R5). -/
theorem codeReport_eq_commandReport {c : Config} (hc : c.legal = true) (code : Byte) :
    code :: List.replicate (c.reportSize - 1) c.pad = commandReport c code 0#8 [] 0#8 := by
  have hsize : c.reportSize - 1 = 3 + c.maxPayload := by have := legal_maxPayload hc; omega
  rw [commandReport, hsize, List.replicate_add, legal_pad hc]
  rfl

/-- The length byte of a command report counts its payload (R60), where the byte can hold the count. -/
theorem lengthByte_toNat {wd : List Byte} (h : wd.length ≤ 255) : (BitVec.ofNat 8 wd.length).toNat = wd.length := by
  simp; omega

section
variable {c : Config} {body wd : List Byte} {wl : Byte}

theorem payload_length (h : wd.length ≤ c.maxPayload) :
    (wd ++ List.replicate (c.maxPayload - wd.length) c.pad).length = c.maxPayload := by
  simp [h]

/-- The payload of a well-formed write is read back from the report's body (R60). -/
theorem payloadOf_encoded (hpay : payloadOk c wd = true) (hfit : fitsLengthByte wd.length = true) :
    payloadOf c (BitVec.ofNat 8 wd.length) (wd ++ List.replicate (c.maxPayload - wd.length) c.pad) = .ok wd := by
  have hle := ((payloadOk_iff c wd).1 hpay).2
  exact (payloadOf_eq_ok_iff (payload_length hle)).2 ⟨lengthByte_toNat (of_decide_eq_true hfit), hle, rfl⟩

/-- A body whose payload the decoder has read is the one the payload is encoded by (R60). -/
theorem commandReport_of_payloadOf (hbody : body.length = c.maxPayload) (h : payloadOf c wl body = .ok wd)
    (code ta rl : Byte) : commandReport c code ta wd rl = code :: ta :: wl :: rl :: body := by
  obtain ⟨hwl, -, rfl⟩ := (payloadOf_eq_ok_iff hbody).1 h
  simp [commandReport, ← hwl]

end

/-- Decoding the encoding of a well-formed command gives it back (R60 to R67). -/
theorem decodeCommand_of_encode {c : Config} {i : Instr} {tx : Report} (hc : c.legal = true)
    (hw : i.wellFormed c = true) (h : encode c i = some (.cmd tx)) : decodeCommand c tx = .ok i := by
  have hnone : (List.replicate c.maxPayload c.pad).length = c.maxPayload := List.length_replicate ..
  cases i
  case setSpeed hz =>
    cases h
    have hfour : (speedBytes hz).length ≤ c.maxPayload := by
      have := legal_four_le_maxPayload hc; simpa [speedBytes] using this
    exact (decodeCommand_setSpeed_iff hc (payload_length hfour)).2 ⟨⟨rfl, rfl, rfl⟩, hz, rfl, rfl⟩
  case i2cWrite ta wd =>
    cases h
    simp only [Instr.wellFormed, Bool.and_eq_true] at hw
    obtain ⟨hpay, hfit⟩ := hw
    refine (decodeCommand_i2cWrite_iff hc (payload_length (payloadOk_length hpay))).2
      ⟨msb_setWidth_target ta, rfl, wd, payloadOf_encoded hpay hfit, ?_⟩
    rw [setWidth_target_address]
  case i2cRead ta rl =>
    cases h
    refine (decodeCommand_i2cRead_iff hc hnone).2 ⟨msb_setWidth_target ta, rfl, rfl, ?_⟩
    rw [setWidth_target_address]
  case i2cWriteRead ta wd rl =>
    cases h
    simp only [Instr.wellFormed, Bool.and_eq_true] at hw
    obtain ⟨⟨hpay, hfit⟩, -⟩ := hw
    refine (decodeCommand_i2cWriteRead_iff hc (payload_length (payloadOk_length hpay))).2
      ⟨msb_setWidth_target ta, wd, payloadOf_encoded hpay hfit, ?_⟩
    rw [setWidth_target_address]
  case getStatus =>
    cases h
    rw [statusReport, codeReport_eq_commandReport hc]
    exact (decodeCommand_getStatus_iff hc hnone).2 ⟨⟨rfl, rfl, rfl⟩, rfl, rfl⟩
  case getData =>
    cases h
    rw [dataReport, codeReport_eq_commandReport hc]
    exact (decodeCommand_getData_iff hc hnone).2 ⟨⟨rfl, rfl, rfl⟩, rfl, rfl⟩
  all_goals cases h

/-- A report the decoder accepts is the encoding of what it reads (R60, R78 (a)). -/
theorem encode_of_decodeCommand {c : Config} {i : Instr} {tx : Report} (hc : c.legal = true)
    (h : decodeCommand c tx = .ok i) : encode c i = some (.cmd tx) := by
  obtain ⟨code, ta, wl, rl, body, rfl, hbody, rfl | rfl | rfl | rfl | rfl | rfl⟩ := header_of_decodeCommand hc h
  · obtain ⟨⟨rfl, rfl, rfl⟩, hz, rfl, rfl⟩ := (decodeCommand_setSpeed_iff hc hbody).1 h
    rfl
  · obtain ⟨hmsb, rfl, wd, hpay, rfl⟩ := (decodeCommand_i2cWrite_iff hc hbody).1 h
    rw [encode, setWidth_address_of_msb hmsb, commandReport_of_payloadOf hbody hpay]
  · obtain ⟨hmsb, rfl, rfl, rfl⟩ := (decodeCommand_i2cRead_iff hc hbody).1 h
    rw [encode, setWidth_address_of_msb hmsb]
    rfl
  · obtain ⟨hmsb, wd, hpay, rfl⟩ := (decodeCommand_i2cWriteRead_iff hc hbody).1 h
    rw [encode, setWidth_address_of_msb hmsb, commandReport_of_payloadOf hbody hpay]
  · obtain ⟨⟨rfl, rfl, rfl⟩, rfl, rfl⟩ := (decodeCommand_getStatus_iff hc hbody).1 h
    rw [encode, statusReport, codeReport_eq_commandReport hc]
    rfl
  · obtain ⟨⟨rfl, rfl, rfl⟩, rfl, rfl⟩ := (decodeCommand_getData_iff hc hbody).1 h
    rw [encode, dataReport, codeReport_eq_commandReport hc]
    rfl

/-- Settles O55: the decoder reads back the encoding of a well-formed command. -/
theorem commandsDecodeTheirEncoding : Obligations.CommandsDecodeTheirEncoding :=
  fun _ _ _ hc hw h => decodeCommand_of_encode hc hw h

/-- Settles O58: the rows the decoder accepts leave no byte of the report open. -/
theorem acceptedCommandIsItsEncoding : Obligations.AcceptedCommandIsItsEncoding :=
  fun _ _ _ hc h => encode_of_decodeCommand hc h

end Sys2Proof
end

section
/-! Responses: the row the decoder finds, against the encoding of each response and against the class of R71. -/

namespace Sys2Proof

open Machine Laws

/-! ### Status rows -/

/-- The response row of a transfer state (R69). -/
def statusResponse : TransferState → List Byte → Instr
  | .inProgress => .rspStatusInProgress
  | .complete => .rspStatusComplete
  | .errNack => .rspStatusErrNack
  | .errTimeout => .rspStatusErrTimeout

/-- The decoder and the classification read a `state` byte alike (R69, R71). -/
theorem statusRow_eq_map (c : Config) (state : Byte) (rest : List Byte) :
    statusRow c state rest = (transferState c state).map (statusResponse · rest) := by
  unfold statusRow transferState
  split_ifs <;> rfl

/-- The `state` byte of a transfer state (R69). -/
def stateByte (c : Config) : TransferState → Byte
  | .inProgress => c.stInProgress
  | .complete => c.stComplete
  | .errNack => c.stErrNack
  | .errTimeout => c.stErrTimeout

/-- The four state bytes are told apart (R5, R69). -/
theorem transferState_stateByte {c : Config} (hc : c.legal = true) (st : TransferState) :
    transferState c (stateByte c st) = some st := by
  have h := List.nodup_reverse.2 (legal_st hc)
  simp only [List.reverse_cons, List.reverse_nil, List.nil_append, List.cons_append, List.nodup_cons, List.mem_cons,
    List.not_mem_nil, not_or, or_false] at h
  cases st <;> simp [transferState, stateByte, h]

/-! ### The row of a received report -/

section
variable {c : Config} {echo b2 b3 : Byte} {tail : List Byte}

theorem decodeResponse_status {st : TransferState} (hst : transferState c b2 = some st)
    (hsize : (c.cmdGetStatus :: c.resOk :: b2 :: b3 :: tail).length = c.reportSize) :
    decodeResponse c (some (c.cmdGetStatus :: c.resOk :: b2 :: b3 :: tail)) = statusResponse st (b3 :: tail) := by
  simp [decodeResponse, hsize, statusRow_eq_map, hst]

theorem decodeResponse_data (hcode : c.cmdGetData ≠ c.cmdGetStatus)
    (hsize : (c.cmdGetData :: c.resOk :: b2 :: b3 :: tail).length = c.reportSize) :
    decodeResponse c (some (c.cmdGetData :: c.resOk :: b2 :: b3 :: tail)) = .rspData b2 b3 tail := by
  simp [decodeResponse, hsize, hcode]

theorem decodeResponse_noData (hcode : c.cmdGetData ≠ c.cmdGetStatus) (hres : c.resNoData ≠ c.resOk)
    (hsize : (c.cmdGetData :: c.resNoData :: b2 :: b3 :: tail).length = c.reportSize) :
    decodeResponse c (some (c.cmdGetData :: c.resNoData :: b2 :: b3 :: tail)) = .rspNoData (b2 :: b3 :: tail) := by
  simp [decodeResponse, hsize, hcode, hres]

theorem decodeResponse_accepted (hstat : echo ≠ c.cmdGetStatus) (hdata : echo ≠ c.cmdGetData)
    (hsize : (echo :: c.resOk :: b2 :: b3 :: tail).length = c.reportSize) :
    decodeResponse c (some (echo :: c.resOk :: b2 :: b3 :: tail)) = .rspAccepted echo (b2 :: b3 :: tail) := by
  simp [decodeResponse, hsize, hstat, hdata]

theorem decodeResponse_busy (hstat : echo ≠ c.cmdGetStatus) (hdata : echo ≠ c.cmdGetData) (hres : c.resBusy ≠ c.resOk)
    (hsize : (echo :: c.resBusy :: b2 :: b3 :: tail).length = c.reportSize) :
    decodeResponse c (some (echo :: c.resBusy :: b2 :: b3 :: tail)) = .rspBusy echo (b2 :: b3 :: tail) := by
  simp [decodeResponse, hsize, hstat, hdata, hres]

/-- A report no row of the table fits is read as no answer (R71). -/
theorem decodeResponse_of_not_row {r : Report} (h : isResponseRow c r = false) :
    decodeResponse c (some r) = .rspNoAnswer (some r) := by
  by_cases hsize : r.length = c.reportSize
  · match r with
    | [] | [_] | [_, _] | [_, _, _] => simp [decodeResponse]
    | echo :: result :: b2 :: b3 :: tail =>
      by_cases hstat : echo = c.cmdGetStatus
      · by_cases hres : result = c.resOk
        · simp_all [isResponseRow, decodeResponse, statusRow]
        · simp [decodeResponse, hstat, hres]
      · by_cases hdata : echo = c.cmdGetData <;> simp_all [isResponseRow, decodeResponse]
  · simp [decodeResponse, hsize]

end

/-! ### Decoding the encoding of a response -/

/-- A report of full size has its four header bytes (R5, R61). -/
theorem header_of_length {c : Config} (hc : c.legal = true) {b0 b1 : Byte} {rest : List Byte}
    (hsize : (b0 :: b1 :: rest).length = c.reportSize) : ∃ b2 b3 tail, rest = b2 :: b3 :: tail := by
  have := legal_reportSize hc
  match rest, hsize with
  | b2 :: b3 :: tail, _ => exact ⟨b2, b3, tail, rfl⟩
  | [], hsize | [_], hsize => simp only [List.length_cons, List.length_nil] at hsize; omega

/-- The result codes of a response are told apart from OK (R5, R61). -/
theorem legal_res_ne_ok {c : Config} (hc : c.legal = true) : c.resBusy ≠ c.resOk ∧ c.resNoData ≠ c.resOk := by
  have h := legal_res hc
  simp only [List.nodup_cons, List.mem_cons, List.not_mem_nil, not_or, or_false] at h
  tauto

/-- The echo of an accept or busy response is the code of no other request (R5, R68). -/
theorem echo_ne_of_acceptEchoOk {c : Config} (hc : c.legal = true) {echo : Byte} (h : acceptEchoOk c echo = true) :
    echo ≠ c.cmdGetStatus ∧ echo ≠ c.cmdGetData := by
  have hop (op : OpCode) : cmdCode c op ≠ c.cmdGetStatus ∧ cmdCode c op ≠ c.cmdGetData := by
    obtain ⟨hstat, hdata, -⟩ := isCommandCode_cmdCode hc op
    exact ⟨hstat, hdata⟩
  obtain rfl | rfl | rfl | rfl := of_decide_eq_true h
  exacts [hop .configure, hop .write, hop .read, hop .writeRead]

theorem decodeResponse_stateByte {c : Config} (hc : c.legal = true) (st : TransferState) {rest : List Byte}
    (hsize : (c.cmdGetStatus :: c.resOk :: stateByte c st :: rest).length = c.reportSize) :
    decodeResponse c (some (c.cmdGetStatus :: c.resOk :: stateByte c st :: rest)) = statusResponse st rest := by
  obtain ⟨_, b3, tail, hrest⟩ := header_of_length hc hsize
  cases hrest
  exact decodeResponse_status (transferState_stateByte hc st) hsize

/-- Decoding the encoding of a well-formed response gives it back, ignored bytes included (R61, R68 to R71). -/
theorem decodeResponse_of_encode {c : Config} {i : Instr} {rx : Option Report} (hc : c.legal = true)
    (hw : i.wellFormed c = true) (h : encode c i = some (.rsp rx)) : decodeResponse c rx = i := by
  obtain ⟨-, -, -, -, hcode, -⟩ := legal_cmd_ne hc
  obtain ⟨hbusy, hnodata⟩ := legal_res_ne_ok hc
  cases i
  case rspAccepted echo rest =>
    cases h
    have hsize := EncodeLength.rspAccepted echo rest c hc hw _ (.inr rfl)
    obtain ⟨b2, b3, tail, rfl⟩ := header_of_length hc hsize
    simp only [Instr.wellFormed, Bool.and_eq_true] at hw
    obtain ⟨hstat, hdata⟩ := echo_ne_of_acceptEchoOk hc hw.1
    exact decodeResponse_accepted hstat hdata hsize
  case rspBusy echo rest =>
    cases h
    have hsize := EncodeLength.rspBusy echo rest c hc hw _ (.inr rfl)
    obtain ⟨b2, b3, tail, rfl⟩ := header_of_length hc hsize
    simp only [Instr.wellFormed, Bool.and_eq_true] at hw
    obtain ⟨hstat, hdata⟩ := echo_ne_of_acceptEchoOk hc hw.1
    exact decodeResponse_busy hstat hdata hbusy hsize
  case rspStatusInProgress rest =>
    cases h
    exact decodeResponse_stateByte hc .inProgress (EncodeLength.rspStatusInProgress rest c hc hw _ (.inr rfl))
  case rspStatusComplete rest =>
    cases h
    exact decodeResponse_stateByte hc .complete (EncodeLength.rspStatusComplete rest c hc hw _ (.inr rfl))
  case rspStatusErrNack rest =>
    cases h
    exact decodeResponse_stateByte hc .errNack (EncodeLength.rspStatusErrNack rest c hc hw _ (.inr rfl))
  case rspStatusErrTimeout rest =>
    cases h
    exact decodeResponse_stateByte hc .errTimeout (EncodeLength.rspStatusErrTimeout rest c hc hw _ (.inr rfl))
  case rspData b2 n data =>
    cases h
    exact decodeResponse_data hcode (EncodeLength.rspData b2 n data c hc hw _ (.inr rfl))
  case rspNoData rest =>
    cases h
    have hsize := EncodeLength.rspNoData rest c hc hw _ (.inr rfl)
    obtain ⟨b2, b3, tail, rfl⟩ := header_of_length hc hsize
    exact decodeResponse_noData hcode hnodata hsize
  case rspNoAnswer rx =>
    cases h
    cases rx with
    | none => rfl
    | some r =>
      simp only [Instr.wellFormed, Bool.and_eq_true, Bool.not_eq_true'] at hw
      exact decodeResponse_of_not_row hw.2
  all_goals cases h

/-- Settles O56: the row that fits the encoding of a well-formed response is its own. -/
theorem responsesDecodeTheirEncoding : Obligations.ResponsesDecodeTheirEncoding := by
  intro c i rx hc hw h
  exact congrArg Decoded.ok (decodeResponse_of_encode hc hw h)

/-! ### The row the decoder finds and the class of R71 -/

/-- That `i` is a response row of the class `x`, where the class is an answer to the command with this code (R68 to R71). -/
def IsRowOf (code : Byte) (x : XchgResult) (i : Instr) : Prop :=
  match x with
  | .accepted => ∃ rest, i = .rspAccepted code rest
  | .busy => ∃ rest, i = .rspBusy code rest
  | .status st => ∃ rest, i = statusResponse st rest
  | .noData => ∃ rest, i = .rspNoData rest
  | .data n bytes => ∃ b2, i = .rspData b2 n bytes
  | .noAnswer | .ioErr | .badSize => True

theorem isRowOf_classify (c : Config) (r : Report) (code : Byte) :
    IsRowOf code (classify c r code) (decodeResponse c (some r)) := by
  by_cases hsize : r.length = c.reportSize
  case neg => rw [classify_of_length_ne code hsize]; trivial
  match r, hsize with
  | [], _ | [_], _ | [_, _], _ | [_, _, _], _ => simp [classify, IsRowOf]
  | echo :: result :: b2 :: b3 :: tail, hsize =>
    by_cases hecho : echo = code
    case neg => rw [classify_of_echo_ne c _ hecho]; trivial
    subst hecho
    simp only [classify, hsize, ne_eq, not_true_eq_false, if_false]
    split
    · next hstat =>
      subst hstat
      split
      · next st hst =>
        split
        · next hres => subst hres; exact ⟨_, decodeResponse_status hst hsize⟩
        · trivial
      · trivial
    · next hstat =>
      split
      · next hdata =>
        subst hdata
        split
        · next hres => subst hres; exact ⟨_, decodeResponse_data hstat hsize⟩
        · next hres =>
          split
          · next hno => subst hno; exact ⟨_, decodeResponse_noData hstat hres hsize⟩
          · trivial
      · next hdata =>
        split
        · split
          · next hres => subst hres; exact ⟨_, decodeResponse_accepted hstat hdata hsize⟩
          · next hres =>
            split
            · next hbusy => subst hbusy; exact ⟨_, decodeResponse_busy hstat hdata hres hsize⟩
            · trivial
        · trivial

/-- Settles O59: each clause reads off the row of one class. -/
theorem decoderAgreesWithClassify : Obligations.DecoderAgreesWithClassify := by
  intro c r code
  have hrow {x : XchgResult} (h : classify c r code = x) : IsRowOf code x (decodeResponse c (some r)) :=
    h ▸ isRowOf_classify c r code
  exact ⟨hrow, hrow, hrow, hrow, hrow, hrow, hrow, fun _ _ => hrow⟩

end Sys2Proof
end

section
/-! Requests and LED pairs decode to themselves; words written out from the encodings; the LED decoder's output. -/

namespace Sys2Proof

open Machine

/-- Decoding the encoding of a driver request gives it back (R72). -/
theorem decodeRequest_of_encode {c : Config} {i : Instr} {k : BitVec 2} {ta : Byte} {w : List Byte} {r : Nat}
    (h : encode c i = some (.req k ta w r)) : decodeRequest k ta w r = .ok i := by
  cases i
  case configure hz =>
    cases h
    simp [decodeRequest, speedBytes, opBits, speedOf_extract]
  case write | read | writeRead => cases h; rfl
  all_goals cases h

/-- Decoding the encoding of an LED pair gives it back (R77). -/
theorem decodePair_of_encode {c : Config} {i : Instr} {fc : BitVec 2} (h : encode c i = some (.pair fc)) :
    decodePair fc = i := by
  cases i
  case decodeEmpty | decodeCharging | decodeFull | decodeError => cases h; rfl
  all_goals cases h

/-- Settles O57: each of the two kinds by its own decoder. -/
theorem requestsAndPairsDecodeTheirEncoding : Obligations.RequestsAndPairsDecodeTheirEncoding := by
  rintro c i e (⟨k, ta, w, r, rfl⟩ | ⟨fc, rfl⟩) h
  · exact decodeRequest_of_encode h
  · exact congrArg Decoded.ok (decodePair_of_encode h)

/-- Settles O60: each word is the encoding of its instruction, with the default parameters. -/
theorem writtenWordsDecode : Obligations.WrittenWordsDecode := by
  have hc : Config.legal {} = true := by decide
  refine ⟨decodeCommand_of_encode hc rfl ?_, decodeCommand_of_encode hc ?_ ?_, decodeCommand_of_encode hc ?_ ?_,
    congrArg Decoded.ok (decodeResponse_of_encode hc ?_ ?_), congrArg Decoded.ok (decodePair_of_encode (c := {}) rfl)⟩
  all_goals decide

/-- Settles O29: the four operations record what `Decode` gives for their pair, and each pair code is its operation's own. -/
theorem ledPairsDecode : Obligations.LedPairsDecode := by
  intro s
  have hpair {i : Instr} {fc : BitVec 2} (h : encode s.cfg i = some (.pair fc)) : decode s.cfg (.pair fc) = .ok i :=
    congrArg Decoded.ok (decodePair_of_encode h)
  exact ⟨rfl, rfl, rfl, rfl, rfl, rfl, rfl, rfl, hpair rfl, hpair rfl, hpair rfl, hpair rfl⟩

end Sys2Proof
end

section
/-! What `exec` of an encoded report does, whatever its row; and what raising an error leaves. -/

namespace Sys2Proof.Machine

/-! ### Reports in the wrong place -/

section
variable {i : Instr} {s : State}

/-- Every command row exchanges the report it is encoded by (R90). -/
theorem exec_of_encode_cmd {tx : Report} (h : encode s.cfg i = some (.cmd tx)) : exec i s = sendReport tx s := by
  cases i
  case setSpeed | i2cWrite | i2cRead | i2cWriteRead | getStatus | getData => cases h; rfl
  all_goals cases h

/-- Every response row answers the exchange that is next with the report it is encoded by (R97). -/
theorem exec_of_encode_rsp {rx : Option Report} (h : encode s.cfg i = some (.rsp rx)) : exec i s = answerWith rx s := by
  cases i
  case rspAccepted | rspBusy | rspStatusInProgress | rspStatusComplete | rspStatusErrNack | rspStatusErrTimeout |
    rspData | rspNoData | rspNoAnswer => cases h; rfl
  all_goals cases h

end

/-- Settles O9: the row's report is compared with the one that is next. -/
theorem onlyTheNextReportIsSent : Obligations.OnlyTheNextReportIsSent := by
  intro i tx s henc hnext
  rw [exec_of_encode_cmd henc]
  exact if_neg hnext

/-- Settles O13: classification looks at the echo first, and without an exchange there is nothing to classify. -/
theorem responseToAnotherCommandIsNoAnswer : Obligations.ResponseToAnotherCommandIsNoAnswer := by
  refine ⟨fun c r echo code rest hr hne => hr ▸ classify_of_echo_ne c rest hne, fun i rx s henc hnone => ?_⟩
  rw [exec_of_encode_rsp henc]
  simp [answerWith, hnone]

/-! ### Raising an error, class by class -/

section
variable {e : ErrClass} (o : BusOutcome) (s : State)

theorem raise_of_bus (h : e = .busTimeout ∨ e = .busError) : raise e o s = setSst .sIdle (markFailed e o s) := by
  rcases h with rfl | rfl <;> rfl

theorem raise_of_deadly (h : e = .deviceNotFound ∨ e = .initError ∨ e = .invalidReportSize ∨ e = .invalidArg) :
    raise e o s = die (markFailed e o s) := by
  rcases h with rfl | rfl | rfl | rfl <;> rfl

theorem raise_ioError : raise .ioError o s = fatalIO (markFailed .ioError o s) := rfl

/-- The registers of `SEQ` after a fatal I/O error: the first gets a reconnect pass, the one in that pass is final (R178). -/
theorem fatalIO_seq : (fatalIO s).seq = { s.seq with sst := if s.seq.rc then .sDead else .sOpen, rc := true } := by
  cases hrc : s.seq.rc <;> simp [fatalIO, hrc]

end

/-- Settles O28: the marks are those of every class, the rest is the transition of the class. -/
theorem raisingAnError : Obligations.RaisingAnError := by
  refine ⟨fun e o s => ⟨by simp, by simp, sameSlots_raise e o s, by simp, by simp, by simp, fun h => ?_, fun h => ?_, ?_⟩,
    rfl, rfl, rfl, rfl, rfl, rfl, rfl, rfl⟩
  · rw [raise_of_bus o s h]
    exact ⟨rfl, rfl, rfl, rfl⟩
  · rw [raise_of_deadly o s h]
    exact ⟨by simp, by simp, by simp, hidClose_hid (markFailed e o s)⟩
  · rintro rfl
    rw [raise_ioError]
    exact ⟨by simp, by simp [fatalIO_seq], by rw [fatalIO_seq]; rfl,
      (fatalIO_hid _).trans (hidClose_hid (markFailed .ioError o s))⟩

end Sys2Proof.Machine
end

section
/-! One exchange, by the command it answers and by its answer: the command reports (R97 to R112) and the responses (R68 to
R71). -/

namespace Sys2Proof.Machine

/-! ### `exec` of a report, as the reaction of the FSM -/

section
variable {i : Instr} {s : State} {tx : Report}

/-- The command that is next makes its exchange, and the sequencer reacts in the same step (R90). -/
theorem exec_of_sends {a : XchgAnswer} {b : BridgeRegs} (h : sends i tx s) (ha : s.world.xchgAnswer = a)
    (hreact : bridgeReact s.cfg a s.brg = b) :
    exec i s = .next (settle (exchanged s tx s.world.xchgAnswer b)) := by
  obtain ⟨henc, hnext⟩ := h
  rw [exec_of_encode_cmd henc, sendReport, if_pos hnext, exchangeStep, bridgeStep_of_next hnext, ha, hreact]

/-- A response answers the exchange that is next (R96). -/
theorem exec_of_response {rx : Option Report} {b : BridgeRegs} (henc : encode s.cfg i = some (.rsp rx))
    (hnext : nextReport s.cfg s.brg = some tx) (hreact : bridgeReact s.cfg ⟨.ok, rx⟩ s.brg = b) :
    exec i s = .next (settle (answered s tx rx b)) := by
  have hx : exchangeNext s = true := by simp [exchangeNext, hnext]
  rw [exec_of_encode_rsp henc, answerWith, if_pos hx, answeredStep, bridgeExchange_of_next hnext, hreact]
  rfl

/-- While the operation goes on the sequencer has nothing to react to. -/
theorem settle_exchanged {a : XchgAnswer} {b : BridgeRegs} (h : b.bst ≠ .bIdle) :
    settle (exchanged s tx a b) = exchanged s tx a b := settle_of_ne_idle h

theorem settle_answered {rx : Option Report} {b : BridgeRegs} (h : b.bst ≠ .bIdle) :
    settle (answered s tx rx b) = answered s tx rx b := settle_of_ne_idle h

theorem nextReport_of_cmd (h : s.brg.bst = .bCmd) : nextReport s.cfg s.brg = some (inFlightReport s.cfg s.brg) :=
  (nextReport_eq_some_iff ..).2 (.inl ⟨h, rfl⟩)

theorem nextReport_of_stat (h : s.brg.bst = .bStat) (hk : s.brg.k < s.cfg.statusPollMax) :
    nextReport s.cfg s.brg = some (statusReport s.cfg) :=
  (nextReport_eq_some_iff ..).2 (.inr (.inl ⟨h, hk, rfl⟩))

theorem nextReport_of_data (h : s.brg.bst = .bData) : nextReport s.cfg s.brg = some (dataReport s.cfg) :=
  (nextReport_eq_some_iff ..).2 (.inr (.inr ⟨h, rfl⟩))

/-- The report of a command that starts a transfer begins with the code of its operation (R72, R93). -/
theorem encode_of_startsTransfer {c : Config} (hi : startsTransfer i = true) (h : encode c i = some (.cmd tx)) :
    ∃ op rest, tx = cmdCode c op :: rest := by
  cases i
  case setSpeed => cases h; exact ⟨.configure, _, rfl⟩
  case i2cWrite => cases h; exact ⟨.write, _, rfl⟩
  case i2cRead => cases h; exact ⟨.read, _, rfl⟩
  case i2cWriteRead => cases h; exact ⟨.writeRead, _, rfl⟩
  all_goals cases hi

/-- With legal parameters such a command is next in `B_CMD` alone: the two requests have codes of their own (R5). -/
theorem bst_of_startsTransfer (hc : s.cfg.legal = true) (hi : startsTransfer i = true) (h : sends i tx s) :
    s.brg.bst = .bCmd := by
  obtain ⟨henc, hnext⟩ := h
  obtain ⟨op, rest, rfl⟩ := encode_of_startsTransfer hi henc
  obtain ⟨hstat, hdata, -⟩ := isCommandCode_cmdCode hc op
  rcases (nextReport_eq_some_iff ..).1 hnext with ⟨hb, -⟩ | ⟨-, -, heq⟩ | ⟨-, heq⟩
  · exact hb
  · exact absurd (List.cons.inj heq).1 hstat
  · exact absurd (List.cons.inj heq).1 hdata

end

/-! ### The class of an answer -/

section
variable {c : Config} {code : Byte} {r : Report}

/-- A received report is never classified as a failed send (R71, R96). -/
theorem classify_ne_failed_send (c : Config) (r : Report) (code : Byte) :
    classify c r code ≠ .ioErr ∧ classify c r code ≠ .badSize := by
  unfold classify
  repeat' split
  all_goals exact ⟨nofun, nofun⟩

/-- A report that fits no response row answers no command (R71). -/
theorem classify_of_not_row (h : isResponseRow c r = false) : classify c r code = .noAnswer := by
  obtain ⟨hio, hsize⟩ := classify_ne_failed_send c r code
  have hrow := isRowOf_classify c r code
  rw [decodeResponse_of_not_row h] at hrow
  cases hx : classify c r code with
  | noAnswer => rfl
  | ioErr => exact absurd hx hio
  | badSize => exact absurd hx hsize
  | accepted | busy | data | noData => rw [hx] at hrow; obtain ⟨_, hrow⟩ := hrow; cases hrow
  | status st => rw [hx] at hrow; obtain ⟨_, hrow⟩ := hrow; cases st <;> cases hrow

/-- A received report is the answer of its class (R96). -/
theorem xchgResult_of_received {x : XchgResult} (h : classify c r code = x) : xchgResult c ⟨.ok, some r⟩ code = x := h

/-- RSP_NOANSWER answers no command (R71). -/
theorem xchgResult_of_noAnswer {rx : Option Report} (h : Instr.wellFormed c (.rspNoAnswer rx) = true) :
    xchgResult c ⟨.ok, rx⟩ code = .noAnswer := by
  cases rx with
  | none => rfl
  | some r =>
    simp only [Instr.wellFormed, Bool.and_eq_true, Bool.not_eq_true'] at h
    exact classify_of_not_row h.2

/-- A report with the echo of another command, or with neither OK nor BUSY, is no answer to a command (R71). -/
theorem classify_command_unanswered (hc : c.legal = true) (op : OpCode) {echo result : Byte} (rest : List Byte)
    (h : echo ≠ cmdCode c op ∨ (result ≠ c.resOk ∧ result ≠ c.resBusy)) :
    classify c (echo :: result :: rest) (cmdCode c op) = .noAnswer := by
  by_cases hecho : echo = cmdCode c op
  case neg => exact classify_of_echo_ne c _ hecho
  obtain ⟨hok, hbusy⟩ := h.resolve_left (absurd hecho)
  subst hecho
  by_cases hsize : rest.length + 2 = c.reportSize
  · rw [classify_command hc op result hsize, if_neg hok, if_neg hbusy]
  · exact classify_of_length_ne _ hsize

/-- A status report with a defined state byte is of the class of its state (R69, R71). -/
theorem classify_stateByte (hc : c.legal = true) (st : TransferState) {rest : List Byte}
    (h : rest.length + 3 = c.reportSize) :
    classify c (c.cmdGetStatus :: c.resOk :: stateByte c st :: rest) c.cmdGetStatus = .status st := by
  rw [classify_status hc _ _ h, transferState_stateByte hc]
  exact if_pos rfl

/-- RSP_NODATA is of its own class (R70, R71). -/
theorem classify_noData (hc : c.legal = true) {rest : List Byte} (h : rest.length + 2 = c.reportSize) :
    classify c (c.cmdGetData :: c.resNoData :: rest) c.cmdGetData = .noData := by
  obtain ⟨-, hne⟩ := legal_res_ne_ok hc
  obtain ⟨b2, b3, tail, rfl⟩ := header_of_length (b0 := c.cmdGetData) (b1 := c.resNoData) hc h
  rw [classify_data hc _ _ _ h, if_neg hne, if_pos rfl]

end

/-! ### The reaction of the FSM, by the answer -/

section
variable {c : Config} {a : XchgAnswer} {b : BridgeRegs} {rest : List Byte}

theorem bridgeReact_accepted (hc : c.legal = true) (hb : b.bst = .bCmd) (h : rest.length + 2 = c.reportSize) :
    bridgeReact c ⟨.ok, some (cmdCode c b.op :: c.resOk :: rest)⟩ b = { b with k := 0, bst := .bStat } := by
  have hx : xchgResult c ⟨.ok, some (cmdCode c b.op :: c.resOk :: rest)⟩ (cmdCode c b.op) = .accepted :=
    (classify_command hc b.op c.resOk h).trans (if_pos rfl)
  rw [bridgeReact_of_cmd c _ hb, hx]
  rfl

theorem bridgeReact_busy (hc : c.legal = true) (hb : b.bst = .bCmd) (h : rest.length + 2 = c.reportSize) :
    bridgeReact c ⟨.ok, some (cmdCode c b.op :: c.resBusy :: rest)⟩ b = attemptFail c .busy b := by
  obtain ⟨hne, -⟩ := legal_res_ne_ok hc
  have hx : xchgResult c ⟨.ok, some (cmdCode c b.op :: c.resBusy :: rest)⟩ (cmdCode c b.op) = .busy :=
    (classify_command hc b.op c.resBusy h).trans ((if_neg hne).trans (if_pos rfl))
  rw [bridgeReact_of_cmd c _ hb, hx]
  rfl

theorem bridgeReact_unanswered (hb : b.bst = .bCmd) (h : xchgResult c a (cmdCode c b.op) = .noAnswer) :
    bridgeReact c a b = attemptFail c .timeout b := by
  rw [bridgeReact_of_cmd c a hb, h]
  rfl

/-- A poll counts before its answer is examined (R102). -/
theorem bridgeReact_poll {x : XchgResult} (hb : b.bst = .bStat) (hk : b.k < c.statusPollMax)
    (h : xchgResult c a c.cmdGetStatus = x) : bridgeReact c a b = afterStatus c x { b with k := b.k + 1 } := by
  rw [bridgeReact_of_stat c a hb, h, countPoll_of_lt hk]

theorem bridgeReact_stateByte (hc : c.legal = true) (hb : b.bst = .bStat) (hk : b.k < c.statusPollMax)
    (st : TransferState) (h : rest.length + 3 = c.reportSize) :
    bridgeReact c ⟨.ok, some (c.cmdGetStatus :: c.resOk :: stateByte c st :: rest)⟩ b
      = afterStatus c (.status st) { b with k := b.k + 1 } :=
  bridgeReact_poll hb hk (classify_stateByte hc st h)

theorem bridgeReact_fetch {x : XchgResult} (hb : b.bst = .bData) (h : xchgResult c a c.cmdGetData = x) :
    bridgeReact c a b = afterData c x b := by
  rw [bridgeReact_of_data c a hb, h]

/-- The reply of a matching data report: `rl` bytes, as many as the report has room for (R107). -/
theorem overwrite_reply (hc : c.legal = true) {bytes : List Byte} (h : bytes.length + 4 = c.reportSize) (rl : Nat)
    (rd : List Byte) : overwrite (bytes.take rl) rd = bytes.take rl ++ rd.drop (min rl c.maxPayload) := by
  have hlen : bytes.length = c.maxPayload := by have := legal_maxPayload hc; omega
  rw [overwrite, List.length_take, hlen]

theorem bridgeReact_data (hc : c.legal = true) (hb : b.bst = .bData) (b2 n : Byte) {bytes : List Byte}
    (h : bytes.length + 4 = c.reportSize) :
    bridgeReact c ⟨.ok, some (c.cmdGetData :: c.resOk :: b2 :: n :: bytes)⟩ b = afterData c (.data n bytes) b :=
  bridgeReact_fetch hb ((classify_data hc c.resOk b2 n h).trans (if_pos rfl))

theorem afterData_match (hc : c.legal = true) {n : Byte} {bytes : List Byte} (h : bytes.length + 4 = c.reportSize)
    (hn : n.toNat = b.rl) :
    afterData c (.data n bytes) b
      = { b with rd := bytes.take b.rl ++ b.rd.drop (min b.rl c.maxPayload), res := .ok, bst := .bIdle } := by
  rw [← overwrite_reply hc h]
  exact if_pos hn

theorem afterData_mismatch {n : Byte} (bytes : List Byte) (hn : n.toNat ≠ b.rl) :
    afterData c (.data n bytes) b = attemptFail c .lenMismatch b := if_neg hn

theorem bridgeReact_noData (hc : c.legal = true) (hb : b.bst = .bData) (h : rest.length + 2 = c.reportSize) :
    bridgeReact c ⟨.ok, some (c.cmdGetData :: c.resNoData :: rest)⟩ b = attemptFail c .lenMismatch b :=
  bridgeReact_fetch hb (xchgResult_of_received (classify_noData hc h))

/-- A failed send ends the operation in every state that makes an exchange; in `B_STAT` it has counted (R101, R107, R112). -/
theorem bridgeReact_failed_send {tx : Report} {x : XchgResult} {o : BusOutcome} (hnext : nextReport c b = some tx)
    (hx : ∀ code, xchgResult c a code = x) (hxo : x = .ioErr ∧ o = .ioErr ∨ x = .badSize ∧ o = .badSize) :
    bridgeReact c a b
      = { b with k := if b.bst = .bStat then b.k + 1 else b.k, res := o, bst := .bIdle } := by
  rcases (nextReport_eq_some_iff ..).1 hnext with ⟨hb, -⟩ | ⟨hb, hk, -⟩ | ⟨hb, -⟩
  · rw [bridgeReact_of_cmd c a hb, hx, if_neg (by rw [hb]; nofun)]
    rcases hxo with ⟨rfl, rfl⟩ | ⟨rfl, rfl⟩ <;> rfl
  · rw [bridgeReact_poll hb hk (hx _), if_pos hb]
    rcases hxo with ⟨rfl, rfl⟩ | ⟨rfl, rfl⟩ <;> rfl
  · rw [bridgeReact_fetch hb (hx _), if_neg (by rw [hb]; nofun)]
    rcases hxo with ⟨rfl, rfl⟩ | ⟨rfl, rfl⟩ <;> rfl

theorem xchgResult_of_ioError (h : a.send = .ioError) (code : Byte) : xchgResult c a code = .ioErr := by
  unfold xchgResult; rw [h]

theorem xchgResult_of_invalidReportSize (h : a.send = .invalidReportSize) (code : Byte) :
    xchgResult c a code = .badSize := by
  unfold xchgResult; rw [h]

end

/-! ### Command reports -/

/-- Settles O8: the two ways an attempt fails exclude each other, and the default set is read off. -/
theorem failedAttemptRetriesOnceThenEnds : Obligations.FailedAttemptRetriesOnceThenEnds := by
  refine ⟨fun c o b hretry htries => ?_, fun c o b hfinal => ?_, fun o => by cases o <;> decide⟩
  · rcases attemptFail_cases c o b with ⟨-, -, hr⟩ | ⟨hfinal, -⟩
    · exact hr
    · simp [hretry, htries] at hfinal
  · rcases attemptFail_cases c o b with ⟨hretry, htries, -⟩ | ⟨-, hr⟩
    · simp [hretry, htries] at hfinal
    · exact hr

/-- Settles O1: the command is in `B_CMD`, its answer is of the class Accepted, and in `B_STAT` there is nothing to react to. -/
theorem acceptedCommandStartsPolling : Obligations.AcceptedCommandStartsPolling := by
  intro i s tx rest hc hi hsend hlen ha
  have hreact := bridgeReact_accepted hc (bst_of_startsTransfer hc hi hsend) hlen
  rw [exec_of_sends hsend ha hreact, settle_exchanged (by simp)]

/-- Settles O2: each answer is BUSY or no answer in `B_CMD`. -/
theorem busyOrUnansweredCommandFailsAttempt : Obligations.BusyOrUnansweredCommandFailsAttempt := by
  intro i s tx hc hi hsend
  have hb := bst_of_startsTransfer hc hi hsend
  refine ⟨fun rest hlen ha => ?_, fun ha => ?_, fun echo result rest ha hne => ?_⟩
  · exact exec_of_sends hsend ha (bridgeReact_busy hc hb hlen)
  · exact exec_of_sends hsend ha (bridgeReact_unanswered hb rfl)
  · have hclass := classify_command_unanswered hc s.brg.op rest hne
    exact exec_of_sends hsend ha (bridgeReact_unanswered hb (xchgResult_of_received hclass))

/-- Settles O3: a failed send is reacted to alike in the three states that make an exchange. -/
theorem failedSendEndsOperation : Obligations.FailedSendEndsOperation := by
  intro i s tx hsend
  have ⟨_, hnext⟩ := hsend
  refine ⟨fun ha => ?_, fun ha => ?_⟩
  · rw [exec_of_sends hsend rfl (bridgeReact_failed_send hnext (xchgResult_of_ioError ha) (.inl ⟨rfl, rfl⟩)),
      exchanged, xchgCalls, ha]
  · rw [exec_of_sends hsend rfl
      (bridgeReact_failed_send hnext (xchgResult_of_invalidReportSize ha) (.inr ⟨rfl, rfl⟩)), exchanged, xchgCalls, ha]

section
variable {s : State}

theorem sends_getStatus (hb : s.brg.bst = .bStat) (hk : s.brg.k < s.cfg.statusPollMax) :
    sends .getStatus (statusReport s.cfg) s := ⟨rfl, nextReport_of_stat hb hk⟩

theorem sends_getData (hb : s.brg.bst = .bData) : sends .getData (dataReport s.cfg) s := ⟨rfl, nextReport_of_data hb⟩

end

/-- Settles O4: each of the answers goes on polling, and the poll that reaches the maximum fails the attempt. -/
theorem unfinishedPollCountsThenTimesOut : Obligations.UnfinishedPollCountsThenTimesOut := by
  intro s hc hb hk ha
  have hreact : bridgeReact s.cfg s.world.xchgAnswer s.brg = stillPolling s.cfg { s.brg with k := s.brg.k + 1 } := by
    rcases ha with ha | ⟨r, ha, hr⟩ | ⟨rest, hlen, ha⟩ <;> rw [ha]
    · exact bridgeReact_poll hb hk rfl
    · exact bridgeReact_poll hb hk (xchgResult_of_received hr)
    · exact bridgeReact_stateByte hc hb hk .inProgress hlen
  rw [exec_of_sends (sends_getStatus hb hk) rfl hreact]
  refine ⟨fun hlt => ?_, fun hmax => ?_⟩
  · rw [stillPolling, if_neg (Nat.ne_of_lt hlt), settle_exchanged (by simp [hb])]
  · rw [stillPolling, if_pos hmax]

/-- Settles O5: by whether the operation reads. -/
theorem completionFetchesDataOrFinishes : Obligations.CompletionFetchesDataOrFinishes := by
  intro s rest hc hb hk hlen ha
  have hreact := bridgeReact_stateByte hc hb hk .complete hlen
  rw [exec_of_sends (sends_getStatus hb hk) ha hreact]
  refine ⟨fun hread => ?_, fun hwrite => ?_⟩
  · rw [afterStatus, if_pos hread, settle_exchanged (by simp)]
  · rw [afterStatus, if_neg (ne_true_of_eq_false hwrite)]
    rfl

/-- Settles O6: the two error states, each the failure of its outcome. -/
theorem errorStatusFailsAttempt : Obligations.ErrorStatusFailsAttempt := by
  intro s rest hc hb hk hlen
  have hreact (st : TransferState) := bridgeReact_stateByte hc hb hk st hlen
  exact ⟨fun ha => exec_of_sends (sends_getStatus hb hk) ha (hreact .errNack),
    fun ha => exec_of_sends (sends_getStatus hb hk) ha (hreact .errTimeout)⟩

/-- Settles O7: the reaction in `B_DATA` to each class of answer. -/
theorem dataFetchCopiesOnlyMatchingCount : Obligations.DataFetchCopiesOnlyMatchingCount := by
  intro s hc hb
  have hsend := sends_getData hb
  refine ⟨fun b2 n bytes hlen ha => ⟨fun hn => ?_, fun hn => ?_⟩, fun rest hlen ha => ?_, fun ha => ?_, fun ha => ?_,
    fun ha => ?_⟩
  · exact exec_of_sends hsend ha ((bridgeReact_data hc hb b2 n hlen).trans (afterData_match hc hlen hn))
  · exact exec_of_sends hsend ha ((bridgeReact_data hc hb b2 n hlen).trans (afterData_mismatch bytes hn))
  · exact exec_of_sends hsend ha (bridgeReact_noData hc hb hlen)
  · have hx : xchgResult s.cfg s.world.xchgAnswer s.cfg.cmdGetData = .noAnswer := by
      rcases ha with ha | ⟨r, ha, hr⟩ <;> rw [ha]
      · rfl
      · exact xchgResult_of_received hr
    exact exec_of_sends hsend rfl (bridgeReact_fetch hb hx)
  · exact exec_of_sends hsend rfl (bridgeReact_fetch hb (xchgResult_of_ioError ha _))
  · exact exec_of_sends hsend rfl (bridgeReact_fetch hb (xchgResult_of_invalidReportSize ha _))

/-! ### Responses -/

/-- Settles O10: the reactions in `B_CMD`. -/
theorem responsesToACommand : Obligations.ResponsesToACommand := by
  intro s hc hb
  have hnext := nextReport_of_cmd hb
  refine ⟨fun rest hlen => ⟨?_, ?_⟩, fun rx hw => ?_⟩
  · rw [exec_of_response rfl hnext (bridgeReact_accepted hc hb hlen), settle_answered (by simp)]
  · exact exec_of_response rfl hnext (bridgeReact_busy hc hb hlen)
  · exact exec_of_response rfl hnext (bridgeReact_unanswered hb (xchgResult_of_noAnswer hw))

/-- Settles O11: the reactions in `B_STAT`. -/
theorem responsesToAStatusRequest : Obligations.ResponsesToAStatusRequest := by
  intro s rest rx hc hb hk hlen hw
  have hnext := nextReport_of_stat hb hk
  have hreact (st : TransferState) := bridgeReact_stateByte hc hb hk st hlen
  exact ⟨exec_of_response rfl hnext (hreact .inProgress), exec_of_response rfl hnext (hreact .complete),
    exec_of_response rfl hnext (hreact .errNack), exec_of_response rfl hnext (hreact .errTimeout),
    exec_of_response rfl hnext (bridgeReact_poll hb hk (xchgResult_of_noAnswer hw))⟩

/-- Settles O12: the reactions in `B_DATA`. -/
theorem responsesToADataRequest : Obligations.ResponsesToADataRequest := by
  intro s hc hb
  have hnext := nextReport_of_data hb
  refine ⟨fun b2 n data hlen hn => ?_, fun b2 n data hlen hn => ?_, fun rest hlen => ?_, fun rx hw => ?_⟩
  · exact exec_of_response rfl hnext ((bridgeReact_data hc hb b2 n hlen).trans (afterData_match hc hlen hn))
  · exact exec_of_response rfl hnext ((bridgeReact_data hc hb b2 n hlen).trans (afterData_mismatch data hn))
  · exact exec_of_response rfl hnext (bridgeReact_noData hc hb hlen)
  · exact exec_of_response rfl hnext (bridgeReact_fetch hb (xchgResult_of_noAnswer hw))

end Sys2Proof.Machine
end

section
/-! Driver requests (R91, R92, R113 to R118): when one is refused, what a start loads, how an operation ends and how many reports
it sends. -/

namespace Sys2Proof.Machine

/-! ### Admission and refusal -/

/-- Every REQ row makes its request (R113 to R116). -/
theorem exec_of_requestOf {i : Instr} {q : Request} (h : requestOf i = some q) (s : State) : exec i s = request q s := by
  cases i
  case configure | write | read | writeRead => cases h; rfl
  all_goals cases h

/-- In `B_IDLE` BADARG is the answer to exactly the requests out of bounds (R91 (a)). -/
theorem request_badArg_iff {q : Request} {s : State} (h : s.brg.bst = .bIdle) :
    request q s = .refused .badArg ↔ ¬ argsOk s.cfg q = true := by
  rcases request_cases q s with ⟨hbusy, -⟩ | ⟨-, hargs, hreq⟩ | ⟨-, hargs, hreq⟩
  · exact absurd h hbusy
  · simp [hreq, hargs]
  · simp [hreq, hargs]

/-- A configuration is never out of bounds (R113). -/
theorem request_configure_ne_badArg (hz : BitVec 32) (s : State) :
    request (configureRequest hz) s ≠ .refused .badArg := by
  rcases request_cases (configureRequest hz) s with ⟨-, hreq⟩ | ⟨-, hargs, -⟩ | ⟨-, -, hreq⟩
  · rw [hreq]; nofun
  · rw [argsOk_configureRequest] at hargs; cases hargs
  · rw [hreq]; nofun

/-- Settles O16: the refusals of R91, with the bounds of each operation. -/
theorem requestsOutOfBoundsAreRefused : Obligations.RequestsOutOfBoundsAreRefused := by
  refine ⟨fun i q s hi hb => ?_, request_configure_ne_badArg, fun ta wd s hb => ?_, fun ta rl s hb => ?_,
    fun ta wd rl s hb => ?_, rfl⟩
  · rw [exec_of_requestOf hi]
    exact if_pos hb
  · exact (request_badArg_iff hb).trans (not_congr (argsOk_writeRequest ..))
  · exact (request_badArg_iff hb).trans (not_congr (argsOk_readRequest ..))
  · rw [← and_assoc (a := 1 ≤ wd.length)]
    exact (request_badArg_iff hb).trans (not_congr (argsOk_writeReadRequest ..))

/-! ### The start -/

/-- The report in flight is the command report of the latched request (R93). -/
theorem inFlightReport_eq (c : Config) (b : BridgeRegs) :
    inFlightReport c b
      = commandReport c (cmdCode c (latchedRequest b).op) (latchedRequest b).ta (latchedRequest b).w
          (BitVec.ofNat 8 (latchedRequest b).r) := rfl

/-- Settles O17: the latch holds the request, and the report in flight is read from it. -/
theorem startLoadsTheRequest : Obligations.StartLoadsTheRequest := by
  intro c q b hpay hq
  have hlatch := latchedRequest_startOp b hq hpay
  refine ⟨hlatch, ?_, rfl, rfl, rfl, rfl, rfl⟩
  rw [inFlightReport_eq, hlatch]

/-! ### The whole operation -/

/-- Settles O14: the operation run whole ends as the big-step operation does, with the latch as the start loaded it. -/
theorem requestsAgreeWithBigStep : Obligations.RequestsAgreeWithBigStep := by
  intro i q s hi hb hq hmax hpay
  obtain ⟨tries, k, hrun⟩ := driverOp_eq_bigStepOp hq hmax hpay
  have honly := driverOp_onlyBridge q s
  rw [exec_of_requestOf hi, request_of_idle hb hq]
  rw [hrun] at honly ⊢
  exact ⟨_, rfl, honly, rfl, latchedRequest_startOp s.brg hq hpay, rfl, rfl, rfl, rfl⟩

/-- With a poll permitted, the operation has ended when it has been run whole (R118). -/
theorem driverOp_bst (q : Request) {s : State} (hmax : 1 ≤ s.cfg.statusPollMax) : (driverOp q s).brg.bst = .bIdle := by
  obtain ⟨tries, k, hrun⟩ := attempts_run s Config.retryMax { world := s.world, calls := [] }
    (b := startOp s.cfg q s.brg) rfl (Nat.zero_add _) hmax
  have hstart : afterRun s { world := s.world, calls := [] } (startOp s.cfg q s.brg)
      = setBrg (startOp s.cfg q s.brg) s := by
    simp [afterRun, setBrg]
  rw [hstart] at hrun
  rw [driverOp, opFuel, hrun.runBridge_eq rfl]
  rfl

/-- Without an exchange in flight none is next. -/
theorem exchangeNext_of_idle {s : State} (h : s.brg.bst = .bIdle) : exchangeNext s = false := by
  simp [exchangeNext, nextReport, h]

/-! ### How many reports an operation sends -/

theorem sendCount_append (xs ys : List HidCall) : sendCount (xs ++ ys) = sendCount xs + sendCount ys := by
  simp [sendCount]

/-- An exchange sends one report (R96). -/
theorem sendCount_xchgCalls (timeout : Nat) (tx : Report) (a : XchgAnswer) : sendCount (xchgCalls timeout tx a) = 1 := by
  unfold xchgCalls
  split <;> rfl

theorem bridgeStep_sends {s : State} (h : exchangeNext s = true) :
    ∃ calls, (bridgeStep s).hid = s.hid ++ calls ∧ sendCount calls = 1 := by
  obtain ⟨tx, hnext⟩ := Option.isSome_iff_exists.1 h
  rw [bridgeStep_of_next hnext]
  exact ⟨_, rfl, sendCount_xchgCalls ..⟩

/-- At most one report is sent for each unit of fuel. -/
theorem runBridge_sends (n : Nat) (s : State) :
    ∃ calls, (runBridge n s).hid = s.hid ++ calls ∧ sendCount calls ≤ n := by
  induction n generalizing s with
  | zero => exact ⟨[], (List.append_nil _).symm, Nat.zero_le _⟩
  | succ n ih =>
    cases h : exchangeNext s with
    | false => exact ⟨[], by rw [runBridge_of_not_next _ h, List.append_nil], Nat.zero_le _⟩
    | true =>
      obtain ⟨calls, hcalls, hone⟩ := bridgeStep_sends h
      obtain ⟨more, hmore, hle⟩ := ih (bridgeStep s)
      refine ⟨calls ++ more, ?_, ?_⟩
      · rw [runBridge_succ n h, hmore, hcalls, List.append_assoc]
      · rw [sendCount_append]; omega

/-- Where an exchange is next the first unit of fuel sends a report. -/
theorem runBridge_succ_sends (n : Nat) {s : State} (h : exchangeNext s = true) :
    ∃ calls, (runBridge (n + 1) s).hid = s.hid ++ calls ∧ 1 ≤ sendCount calls ∧ sendCount calls ≤ n + 1 := by
  obtain ⟨calls, hcalls, hone⟩ := bridgeStep_sends h
  obtain ⟨more, hmore, hle⟩ := runBridge_sends n (bridgeStep s)
  refine ⟨calls ++ more, ?_, ?_⟩
  · rw [runBridge_succ n h, hmore, hcalls, List.append_assoc]
  · rw [sendCount_append]; omega

/-- Settles O15: the fuel of the operation bounds its reports, and the command is the first of them. -/
theorem operationExchangesAreBounded : Obligations.OperationExchangesAreBounded := by
  intro i q s hi hb hq
  have hfirst : exchangeNext (setBrg (startOp s.cfg q s.brg) s) = true := rfl
  have hfuel : opFuel s.cfg = (2 * (s.cfg.statusPollMax + 2) - 1) + 1 := by simp only [opFuel, Config.retryMax]; omega
  obtain ⟨calls, hcalls, hlow, hhigh⟩ := runBridge_succ_sends (2 * (s.cfg.statusPollMax + 2) - 1) hfirst
  rw [← hfuel] at hcalls
  rw [exec_of_requestOf hi, request_of_idle hb hq]
  exact ⟨_, calls, rfl, hcalls, hlow, by omega,
    fun hmax => ⟨driverOp_bst q hmax, exchangeNext_of_idle (driverOp_bst q hmax)⟩⟩

end Sys2Proof.Machine
end

section
/-! A step of the machine from what is next: the fetch of the report in flight (R57, R60), the start steps, and why a sound state
always steps. -/

namespace Sys2Proof.Machine

/-! ### What is next, without `rst` -/

section
variable {u : State}

/-- Outside `S_OPEN`, `S_DEAD` and `S_OFF` the block goes on with its operation (R183). -/
theorem agenda_of_active (hrst : u.world.inp.rst = false) (hopen : u.seq.sst ≠ .sOpen) (hdead : u.seq.sst ≠ .sDead)
    (hoff : u.seq.sst ≠ .sOff) : agenda u = fetchAgenda u := by
  unfold agenda
  rw [if_neg (ne_true_of_eq_false hrst)]
  split
  case h_1 h => exact absurd h hopen
  case h_2 h => exact absurd h hdead
  case h_3 h => exact absurd h hoff
  all_goals rfl

theorem fetchAgenda_of_decode {tx : Report} {i : Instr} (hnext : nextReport u.cfg u.brg = some tx)
    (hdec : decodeCommand u.cfg tx = .ok i) : fetchAgenda u = .run i := by
  simp only [fetchAgenda, hnext, hdec]

theorem fetchAgenda_of_idle (h : u.brg.bst = .bIdle) : fetchAgenda u = quietAgenda u := by
  simp only [fetchAgenda, nextReport, h]

theorem quietAgenda_of_inPass (hpass : inPass u = true) (hb : u.brg.bst = .bIdle) : quietAgenda u = .startOperation := by
  unfold quietAgenda
  rw [if_pos hb]
  cases h : u.seq.sst <;> simp [inPass, h] at hpass ⊢

/-- A start-up pass runs in the active states (R171 to R173). -/
theorem active_of_inPass (h : inPass u = true) : u.seq.sst ≠ .sOpen ∧ u.seq.sst ≠ .sDead ∧ u.seq.sst ≠ .sOff := by
  cases hs : u.seq.sst <;> simp [inPass, hs] at h ⊢

/-- In a start-up pass with the bridge idle the next operation is started (R171 to R173). -/
theorem blockStep_of_pass_idle (hrst : u.world.inp.rst = false) (hpass : inPass u = true) (hb : u.brg.bst = .bIdle) :
    blockStep u = .next (startStep u) := by
  obtain ⟨hopen, hdead, hoff⟩ := active_of_inPass hpass
  rw [blockStep_eq, agenda_of_active hrst hopen hdead hoff, fetchAgenda_of_idle hb, quietAgenda_of_inPass hpass hb]
  rfl

end

/-- Settles O42: the report that is next is fetched, and the beginning of the step leaves what it is read from. -/
theorem stepRunsTheDecodedCommand : Obligations.StepRunsTheDecodedCommand := by
  intro s tx i hrst hopen hdead hoff hnext hdec
  have hfetch : fetchAgenda (beginStep s) = .run i :=
    fetchAgenda_of_decode (tx := tx) (by rw [beginStep_cfg, beginStep_brg]; exact hnext) (by rw [beginStep_cfg]; exact hdec)
  rw [step, blockStep_eq, agenda_of_active hrst hopen hdead hoff, hfetch]
  rfl

theorem ownRequest_congr {s t : State} (hcfg : t.cfg = s.cfg) (hseq : t.seq = s.seq) : ownRequest t = ownRequest s := by
  simp only [ownRequest, hcfg, hseq]

theorem inPass_congr {s t : State} (hseq : t.seq = s.seq) : inPass t = inPass s := by
  simp only [inPass, hseq]

/-- A honoured tick enters `S_READ` with the READPORT request loaded (R174). -/
theorem beginPoll_eq {s : State} (hc : s.cfg.legal = true) :
    beginPoll s = setBrg (startOp s.cfg (readPortRequest s.cfg) s.brg) (setSst .sRead s) :=
  startStep_of_own (s := setSst .sRead s) hc rfl

/-- Settles O44: both starts load the own request of the state they are in. -/
theorem startStepsLoadTheOwnRequest : Obligations.StartStepsLoadTheOwnRequest := by
  intro s hc hb
  refine ⟨fun hpass hrst => ?_, fun _ => beginPoll_eq hc⟩
  obtain ⟨q, hown⟩ := ownRequest_of_inPass hpass
  have hpass' : inPass (beginStep s) = true := (inPass_congr (beginStep_seq s)).trans hpass
  have hown' : ownRequest (beginStep s) = some q := (ownRequest_congr (beginStep_cfg s) (beginStep_seq s)).trans hown
  have hc' : (beginStep s).cfg.legal = true := by rw [beginStep_cfg]; exact hc
  refine ⟨q, hown, ?_⟩
  rw [step, blockStep_of_pass_idle hrst hpass' (by rw [beginStep_brg]; exact hb), startStep_of_own hc' hown', beginStep_cfg,
    beginStep_brg]
  rfl

/-! ### The report in flight decodes -/

/-- The command report of a request in bounds is accepted by the decoder, where its lengths fit their bytes (R60, R93). -/
theorem decodeCommand_of_argsOk {c : Config} (hc : c.legal = true) {q : Request} (hq : argsOk c q = true)
    (hw : q.w.length ≤ 255) (hr : q.r ≤ 255) :
    ∃ i, decodeCommand c (commandReport c (cmdCode c q.op) q.ta q.w (BitVec.ofNat 8 q.r)) = .ok i := by
  obtain ⟨op, ta, w, r⟩ := q
  simp only [argsOk, Bool.and_eq_true] at hq
  obtain ⟨hta, hq⟩ := hq
  have hmsb : ta.msb = false := by
    have := (targetOk_iff ta).1 hta
    rw [BitVec.msb_eq_false_iff_two_mul_lt]
    omega
  have haddr := setWidth_address_of_msb hmsb
  have hfit : fitsLengthByte w.length = true := decide_eq_true hw
  have hlen : (BitVec.ofNat 8 r).toNat = r := Nat.mod_eq_of_lt (Nat.lt_succ_of_le hr)
  cases op with
  | configure =>
    obtain ⟨hfour, rfl, rfl⟩ := of_decide_eq_true hq
    match w, hfour with
    | [b0, b1, b2, b3], _ =>
      refine ⟨.setSpeed (speedOf b0 b1 b2 b3), decodeCommand_of_encode hc rfl ?_⟩
      rw [encode, speedBytes_speedOf]
      rfl
  | write =>
    simp only [Bool.and_eq_true, decide_eq_true_eq] at hq
    obtain ⟨hpay, rfl⟩ := hq
    refine ⟨.i2cWrite (ta.setWidth 7) w, decodeCommand_of_encode hc ?_ ?_⟩
    · rw [Instr.wellFormed, hpay, hfit]; rfl
    · rw [encode, haddr]; rfl
  | read =>
    simp only [Bool.and_eq_true, decide_eq_true_eq, List.length_eq_zero_iff] at hq
    obtain ⟨rfl, hread⟩ := hq
    refine ⟨.i2cRead (ta.setWidth 7) (BitVec.ofNat 8 r), decodeCommand_of_encode hc ?_ ?_⟩
    · rw [Instr.wellFormed, hlen, hread]
    · rw [encode, haddr]; rfl
  | writeRead =>
    simp only [Bool.and_eq_true] at hq
    obtain ⟨hpay, hread⟩ := hq
    refine ⟨.i2cWriteRead (ta.setWidth 7) w (BitVec.ofNat 8 r), decodeCommand_of_encode hc ?_ ?_⟩
    · rw [Instr.wellFormed, hpay, hfit, hlen, hread]; rfl
    · rw [encode, haddr]; rfl

/-- The sequencer's own requests are short (R113, R131 to R133). -/
theorem ownRequest_lengths {s : State} {q : Request} (h : ownRequest s = some q) : q.w.length ≤ 4 ∧ q.r ≤ 2 := by
  unfold ownRequest at h
  split at h <;> cases h
  · exact ⟨le_rfl, Nat.zero_le _⟩
  · exact ⟨Nat.le_succ 3, Nat.zero_le _⟩
  · exact ⟨Nat.le_succ 3, Nat.zero_le _⟩
  · exact ⟨Nat.le_add_left 1 3, le_rfl⟩

/-- In a sound state the report that is next is a command report (R53, R60, R66, R67). -/
theorem State.Inv.decodes {s : State} (h : s.Inv) {tx : Report} (hnext : nextReport s.cfg s.brg = some tx) :
    ∃ i, decodeCommand s.cfg tx = .ok i := by
  rcases (nextReport_eq_some_iff ..).1 hnext with ⟨hb, rfl⟩ | ⟨-, -, rfl⟩ | ⟨-, rfl⟩
  · have hbusy : s.busy = true := busy_iff.2 (by simp [hb])
    obtain ⟨hw, hr⟩ := ownRequest_lengths (h.in_flight hbusy)
    exact decodeCommand_of_argsOk h.legal (h.in_bounds hbusy) (by omega) (by omega)
  · exact ⟨.getStatus, decodeCommand_of_encode h.legal rfl rfl⟩
  · exact ⟨.getData, decodeCommand_of_encode h.legal rfl rfl⟩

/-- The fetched command is the one whose report is next, so running it makes the exchange (R78 (a), R90). -/
theorem exec_of_fetched {s : State} {tx : Report} {i : Instr} (hc : s.cfg.legal = true)
    (hnext : nextReport s.cfg s.brg = some tx) (hdec : decodeCommand s.cfg tx = .ok i) :
    exec i s = .next (exchangeStep s) := by
  rw [exec_of_encode_cmd (encode_of_decodeCommand hc hdec), sendReport, if_pos hnext]

theorem State.Inv.exec_fetchAgenda {u : State} (h : u.Inv) {tx : Report} (hnext : nextReport u.cfg u.brg = some tx) :
    runAgenda (fetchAgenda u) u = .next (exchangeStep u) := by
  obtain ⟨i, hdec⟩ := h.decodes hnext
  rw [fetchAgenda_of_decode hnext hdec]
  exact exec_of_fetched h.legal hnext hdec

/-! ### A sound state always steps -/

theorem quietAgenda_steps (u : State) : ∃ t, runAgenda (quietAgenda u) u = .next t := by
  unfold quietAgenda
  split
  case isFalse => exact ⟨u, rfl⟩
  case isTrue =>
    split
    case h_1 | h_2 | h_3 => exact ⟨startStep u, rfl⟩
    case h_4 hsst =>
      unfold idleAgenda
      split
      · exact ⟨stopStep u, if_pos hsst⟩
      · split
        · exact ⟨beginPoll u, rfl⟩
        · exact ⟨u, rfl⟩
    all_goals exact ⟨u, rfl⟩

theorem State.Inv.fetchAgenda_steps {u : State} (h : u.Inv) : ∃ t, runAgenda (fetchAgenda u) u = .next t := by
  cases hnext : nextReport u.cfg u.brg with
  | none =>
    have hquiet : fetchAgenda u = quietAgenda u := by simp only [fetchAgenda, hnext]
    rw [hquiet]
    exact quietAgenda_steps u
  | some tx => exact ⟨_, h.exec_fetchAgenda hnext⟩

theorem State.Inv.blockStep_steps {u : State} (h : u.Inv)
    (hrst : u.world.inp.rst = true → u.world.inp.debounceN ≠ 0#8) : ∃ t, blockStep u = .next t := by
  rw [blockStep_eq]
  unfold agenda
  split
  case isTrue hr => exact ⟨resetBlock u, exec_reset (hrst hr)⟩
  case isFalse =>
    split
    case h_1 hsst => exact ⟨openStep u, if_pos hsst⟩
    case h_2 | h_3 => exact ⟨u, rfl⟩
    all_goals exact h.fetchAgenda_steps

/-- Settles O48: whatever is next answers a state; an exchange does because the report of a sound latch decodes. -/
theorem soundStateAlwaysSteps : Obligations.SoundStateAlwaysSteps :=
  fun _ hinv hrst => hinv.beginStep.blockStep_steps hrst

end Sys2Proof.Machine
end

section
/-! The block by itself: each operation of the sequencer is run to its end and reacted to, and after the operations of its pass or
its poll the block waits (R185). -/

namespace Sys2Proof.Machine

/-! ### Moves of the block by itself -/

/-- At most `n` moves of the block by itself lead from `s` to `t`. -/
def OwnRuns (n : Nat) (s t : State) : Prop := ∃ m ≤ n, runOwn m s = t

theorem runOwn_add (m n : Nat) (s : State) : runOwn (m + n) s = runOwn n (runOwn m s) := by
  induction m generalizing s with
  | zero => rw [Nat.zero_add]; rfl
  | succ m ih =>
    cases h : ownMoveNext s with
    | false => simp only [runOwn_of_not _ h]
    | true => rw [Nat.add_right_comm, runOwn_succ _ h, runOwn_succ _ h, ih]

/-- A first move, then the rest. -/
theorem OwnRuns.head {n : Nat} {s t : State} (hmove : ownMoveNext s = true) (h : OwnRuns n (ownMove s) t) :
    OwnRuns (n + 1) s t := by
  obtain ⟨m, hm, hrun⟩ := h
  exact ⟨m + 1, Nat.succ_le_succ hm, (runOwn_succ m hmove).trans hrun⟩

/-- Where the block waits after `k` moves from `t`, it waits after those that lead to `t` and `k` more. -/
theorem OwnRuns.waits {n k : Nat} {s t : State} (h : OwnRuns n s t) (hwait : ownMoveNext (runOwn k t) = false) :
    ownMoveNext (runOwn (n + k) s) = false := by
  obtain ⟨m, hm, rfl⟩ := h
  have hsplit : n + k = m + (k + (n - m)) := by omega
  rw [hsplit, runOwn_add, runOwn_add, runOwn_of_not _ hwait]
  exact hwait

/-- An exchange of the sequencer's own operation is the block's next move. -/
theorem ownMoveNext_of_exchange {s : State} {q : Request} (hown : ownRequest s = some q) (hx : exchangeNext s = true) :
    ownMoveNext s = true := by
  cases hs : s.seq.sst <;> simp [ownRequest, ownMoveNext, inPass, hs, hx] at hown ⊢

theorem ownMove_of_exchange {s : State} (hx : exchangeNext s = true) : ownMove s = settle (bridgeStep s) := if_pos hx

theorem ownMoveNext_of_pass_idle {s : State} (hpass : inPass s = true) (hb : s.brg.bst = .bIdle) :
    ownMoveNext s = true := by
  simp [ownMoveNext, hpass, hb]

theorem ownMove_of_not_next {s : State} (hx : exchangeNext s = false) : ownMove s = startStep s :=
  if_neg (ne_true_of_eq_false hx)

/-! ### One operation -/

/-- The exchanges of an operation of the sequencer are those of the bridge, and its end is reacted to (R90). -/
theorem operation_runs (n : Nat) {s : State} {q : Request} (hown : ownRequest s = some q) (hb : s.brg.bst ≠ .bIdle)
    (hend : (runBridge n s).brg.bst = .bIdle) : OwnRuns n s (react (runBridge n s)) := by
  induction n generalizing s with
  | zero => exact absurd hend hb
  | succ n ih =>
    cases hx : exchangeNext s with
    | false => rw [runBridge_of_not_next _ hx] at hend; exact absurd hend hb
    | true =>
      rw [runBridge_succ n hx] at hend ⊢
      refine .head (ownMoveNext_of_exchange hown hx) ?_
      rw [ownMove_of_exchange hx]
      by_cases hidle : (bridgeStep s).brg.bst = .bIdle
      · rw [settle_of_idle hidle, runBridge_of_not_next n (exchangeNext_of_idle hidle)]
        exact ⟨0, Nat.zero_le n, rfl⟩
      · rw [settle_of_ne_idle hidle]
        exact ih ((ownRequest_congr (bridgeStep_cfg s) (bridgeStep_seq s)).trans hown) hidle hend

/-- From its start, an operation of the sequencer is the driver operation of its request, and the reaction to it (R92, R117). -/
theorem startStep_runs {s : State} {q : Request} (hc : s.cfg.legal = true) (hown : ownRequest s = some q) :
    OwnRuns (opFuel s.cfg) (startStep s) (react (driverOp q s)) := by
  rw [startStep_of_own hc hown]
  exact operation_runs (opFuel s.cfg) (s := setBrg (startOp s.cfg q s.brg) s) hown nofun
    (driverOp_bst q (legal_statusPollMax hc))

/-- An operation of a start-up pass, its start included. -/
theorem pass_operation_runs {s : State} {q : Request} (hc : s.cfg.legal = true) (hown : ownRequest s = some q)
    (hpass : inPass s = true) (hb : s.brg.bst = .bIdle) :
    OwnRuns (opFuel s.cfg + 1) s (react (driverOp q s)) := by
  refine .head (ownMoveNext_of_pass_idle hpass hb) ?_
  rw [ownMove_of_not_next (exchangeNext_of_idle hb)]
  exact startStep_runs hc hown

/-! ### Where the block waits -/

/-- The states in which no move of the block by itself follows an operation: `S_IDLE`, `S_OPEN`, `S_DEAD` (R180, R185). -/
def Waiting (s : State) : Prop := s.seq.sst = .sIdle ∨ s.seq.sst = .sOpen ∨ s.seq.sst = .sDead

theorem Waiting.no_move {s : State} (h : Waiting s) : ownMoveNext s = false := by
  rcases h with h | h | h <;> simp [ownMoveNext, inPass, h]

/-- Every error leaves the block waiting (R190). -/
theorem waiting_raise {e : ErrClass} (he : e ≠ .noErr) (o : BusOutcome) (s : State) : Waiting (raise e o s) := by
  rcases raise_cases e o s with ⟨rfl, -⟩ | ⟨-, hr⟩ | ⟨-, hr⟩ | ⟨-, hr⟩
  · exact absurd rfl he
  · rw [hr]; exact .inl rfl
  · rw [hr]; exact .inr (.inr rfl)
  · rw [hr, Waiting, fatalIO_seq]
    cases (markFailed e o s).seq.rc
    · exact .inr (.inl rfl)
    · exact .inr (.inr rfl)

/-- The reaction to the end of a poll's operation, by its outcome (R175 to R177). -/
theorem react_of_read {s : State} (h : s.seq.sst = .sRead) :
    react s = if s.brg.res = .ok then pollDone s else raise (errOf s.brg.res) s.brg.res s := by
  unfold react
  rw [h]
  rfl

/-- A poll cycle that has ended leaves the block waiting (R175 to R177). -/
theorem waiting_react_of_read {s : State} (h : s.seq.sst = .sRead) : Waiting (react s) := by
  rw [react_of_read h]
  split
  · exact .inl rfl
  · next hres => exact waiting_raise (errOf_ne_noErr hres) ..

theorem react_cfg (s : State) : (react s).cfg = s.cfg := by
  obtain ⟨hpoll, -⟩ := pollDone_fields s
  rcases react_cases s with ⟨-, -, hr⟩ | ⟨-, -, hr⟩ | ⟨-, -, hr⟩ | ⟨-, -, hr⟩ | ⟨-, -, hr⟩ | ⟨-, -, hr⟩ | ⟨-, hr⟩ <;>
    rw [hr]
  · rfl
  · rfl
  · rfl
  · exact raise_cfg ..
  · exact hpoll
  · exact raise_cfg ..

/-! ### A start-up pass -/

/-- The operations of a start-up pass still to be made (R171 to R173). -/
def operationsLeft : SeqState → Nat
  | .sConfig => 3
  | .sInitDir => 2
  | .sInitPu => 1
  | .sOpen | .sIdle | .sRead | .sDead | .sOff => 0

/-- Between two operations of a start-up pass, with `n` left, or after the pass. -/
def PassAt (n : Nat) (s : State) : Prop :=
  Waiting s ∨ (inPass s = true ∧ s.brg.bst = .bIdle ∧ operationsLeft s.seq.sst = n)

theorem passAt_zero {s : State} (h : PassAt 0 s) : Waiting s := by
  rcases h with h | ⟨hpass, -, hleft⟩
  · exact h
  · cases hs : s.seq.sst <;> simp [inPass, operationsLeft, hs] at hpass hleft

/-- The reaction to an operation of the pass goes to the next one, or ends the pass (R171 to R173, R184). -/
theorem passAt_react {n : Nat} {s : State} (hpass : inPass s = true) (hb : s.brg.bst = .bIdle)
    (hleft : operationsLeft s.seq.sst = n + 1) : PassAt n (react s) := by
  rcases react_cases s with ⟨hs, -, hr⟩ | ⟨hs, -, hr⟩ | ⟨hs, -, hr⟩ | ⟨-, hres, hr⟩ | ⟨hs, -⟩ | ⟨hs, -⟩ | ⟨hs, -⟩
  · rw [hs] at hleft
    cases hleft
    rw [hr]
    exact .inr ⟨rfl, hb, rfl⟩
  · rw [hs] at hleft
    cases hleft
    rw [hr]
    exact .inr ⟨rfl, hb, rfl⟩
  · rw [hr]
    exact .inl (.inl rfl)
  · rw [hr]
    exact .inl (waiting_raise (bootErrClass_ne_noErr hres) ..)
  · simp [inPass, hs] at hpass
  · simp [inPass, hs] at hpass
  · rcases hs with hs | hs | hs | hs <;> simp [inPass, hs] at hpass

/-- After the operations of the pass the block waits (R185). -/
theorem pass_waits (n : Nat) {s : State} (hc : s.cfg.legal = true) (h : PassAt n s) :
    ownMoveNext (runOwn (n * (1 + opFuel s.cfg)) s) = false := by
  induction n generalizing s with
  | zero => rw [Nat.zero_mul]; exact (passAt_zero h).no_move
  | succ n ih =>
    rcases h with h | ⟨hpass, hb, hleft⟩
    · rw [runOwn_of_not _ h.no_move]; exact h.no_move
    · obtain ⟨q, hown⟩ := ownRequest_of_inPass hpass
      obtain ⟨hcfg, hseq, -⟩ := driverOp_onlyBridge q s
      have hnext : PassAt n (react (driverOp q s)) :=
        passAt_react ((inPass_congr hseq).trans hpass) (driverOp_bst q (legal_statusPollMax hc)) (by rw [hseq, hleft])
      have hcfg' : (react (driverOp q s)).cfg = s.cfg := (react_cfg _).trans hcfg
      have hrest := ih (by rw [hcfg']; exact hc) hnext
      rw [hcfg'] at hrest
      rw [Nat.succ_mul, Nat.add_comm, Nat.add_comm 1]
      rw [Nat.add_comm 1] at hrest
      exact (pass_operation_runs hc hown hpass hb).waits hrest

/-- A poll cycle ends within its fuel (R174 to R177). -/
theorem poll_waits {s : State} (hc : s.cfg.legal = true) : ownMoveNext (runOwn (opFuel s.cfg) (beginPoll s)) = false := by
  obtain ⟨-, hseq, -⟩ := driverOp_onlyBridge (readPortRequest s.cfg) (setSst .sRead s)
  have hwait : Waiting (react (driverOp (readPortRequest s.cfg) (setSst .sRead s))) :=
    waiting_react_of_read (by rw [hseq]; rfl)
  exact (startStep_runs (s := setSst .sRead s) hc rfl).waits (k := 0) hwait.no_move

/-- A start-up pass ends within its fuel (R170 to R173, R185). -/
theorem boot_waits {s : State} (hc : s.cfg.legal = true) : ownMoveNext (runOwn (passFuel s.cfg) (openStep s)) = false := by
  rcases openStep_cases s with hr | hr <;> rw [hr]
  · exact pass_waits 3 (s := enterPass (openCalled s)) hc (.inr ⟨rfl, rfl, rfl⟩)
  · have hwait := waiting_raise (e := .deviceNotFound) nofun .ok (openCalled s)
    rw [runOwn_of_not _ hwait.no_move]
    exact hwait.no_move

end Sys2Proof.Machine
end

section
/-! POLL and BOOT against the machine's own steps (log 12): the block's moves neither read nor write the input lines, except that
the end of a poll takes its time from `now`; so a run of steps with quiet inputs makes the moves POLL and BOOT make. -/

namespace Sys2Proof.Machine

/-! ### The open, by its answer (R170) -/

theorem openStep_of_ok {s : State} (h : s.world.openAnswer = .ok) : openStep s = enterPass (openCalled s) := by
  unfold openStep
  split
  · rfl
  · next hne => rw [h] at hne; cases hne

theorem openStep_of_not_found {s : State} (h : s.world.openAnswer = .deviceNotFound) :
    openStep s = raise .deviceNotFound .ok (openCalled s) := by
  unfold openStep
  split
  · next hok => rw [h] at hok; cases hok
  · rfl

/-! ### The inputs replaced -/

/-- The world with other sampled inputs and other lines to come. -/
def World.withInputs (i : Inputs) (ls : List Inputs) (w : World) : World := { w with inp := i, lines := ls }

/-- The state with other sampled inputs and other lines to come. -/
def withInputs (i : Inputs) (ls : List Inputs) (s : State) : State := { s with world := s.world.withInputs i ls }

section
variable (i : Inputs) (ls : List Inputs) (s : State) (w : World)

@[simp] theorem withInputs_cfg : (withInputs i ls s).cfg = s.cfg := rfl
@[simp] theorem withInputs_seq : (withInputs i ls s).seq = s.seq := rfl
@[simp] theorem withInputs_brg : (withInputs i ls s).brg = s.brg := rfl
@[simp] theorem withInputs_inp : (withInputs i ls s).world.inp = i := rfl
theorem withInputs_self : withInputs s.world.inp s.world.lines s = s := rfl
theorem sameBlock_withInputs : sameBlock s (withInputs i ls s) := ⟨rfl, rfl, rfl, rfl, rfl, rfl, rfl, rfl⟩
theorem exchangeNext_withInputs : exchangeNext (withInputs i ls s) = exchangeNext s := rfl

theorem State.Inv.withInputs {s : State} (h : s.Inv) : (withInputs i ls s).Inv := { h with handle_iff := h.handle_iff }

/-- A step begins by taking the first line; a line without a query changes nothing else (R28, R165). -/
theorem beginStep_withInputs {l : Inputs} (hl : l.query = false) :
    beginStep (withInputs i (l :: ls) s) = withInputs l ls s := if_neg (ne_true_of_eq_false hl)

/-! ### The moves of the block with other inputs -/

theorem afterXchg_withInputs : (w.withInputs i ls).afterXchg = w.afterXchg.withInputs i ls := by
  cases h : w.xchgs <;> simp [World.afterXchg, World.withInputs, h]

theorem afterOpen_withInputs : (w.withInputs i ls).afterOpen = w.afterOpen.withInputs i ls := by
  cases h : w.opens <;> simp [World.afterOpen, World.withInputs, h]

@[simp] theorem afterXchg_inp : w.afterXchg.inp = w.inp := by
  unfold World.afterXchg; split <;> rfl

theorem takeXchg_withInputs : takeXchg (withInputs i ls s) = withInputs i ls (takeXchg s) :=
  congrArg (fun w => { s with world := w }) (afterXchg_withInputs i ls s.world)

theorem bridgeExchange_withInputs (a : XchgAnswer) :
    bridgeExchange a (withInputs i ls s) = withInputs i ls (bridgeExchange a s) := by
  unfold bridgeExchange
  rw [withInputs_cfg, withInputs_brg]
  split <;> rfl

theorem bridgeStep_withInputs : bridgeStep (withInputs i ls s) = withInputs i ls (bridgeStep s) := by
  rw [bridgeStep, takeXchg_withInputs, bridgeExchange_withInputs]
  rfl

theorem hidClose_withInputs : hidClose (withInputs i ls s) = withInputs i ls (hidClose s) := by
  by_cases h : s.brg.bst = .bClosed
  · rw [hidClose_of_closed h, hidClose_of_closed (s := withInputs i ls s) h]
  · rw [hidClose_of_open h, hidClose_of_open (s := withInputs i ls s) h]
    rfl

theorem die_withInputs : die (withInputs i ls s) = withInputs i ls (die s) := by
  rw [die, hidClose_withInputs]
  rfl

theorem fatalIO_withInputs : fatalIO (withInputs i ls s) = withInputs i ls (fatalIO s) := by
  unfold fatalIO
  rw [hidClose_withInputs, withInputs_seq]
  split <;> rfl

theorem raise_withInputs (e : ErrClass) (o : BusOutcome) :
    raise e o (withInputs i ls s) = withInputs i ls (raise e o s) := by
  cases e
  case deviceNotFound | initError | invalidReportSize | invalidArg => exact die_withInputs i ls (markFailed _ o s)
  case ioError => exact fatalIO_withInputs i ls (markFailed .ioError o s)
  all_goals rfl

theorem dispatchSlot_withInputs (t : Time) (j : Fin 6) :
    dispatchSlot t (withInputs i ls s) j = withInputs i ls (dispatchSlot t s j) := by
  rw [dispatchSlot_eq, dispatchSlot_eq]
  rfl

theorem slotCycle_withInputs (t : Time) : slotCycle t (withInputs i ls s) = withInputs i ls (slotCycle t s) := by
  have hpasses : slotOrder.foldl slotPass (withInputs i ls s) = withInputs i ls (slotOrder.foldl slotPass s) :=
    List.foldl_hom (withInputs i ls) fun _ _ => rfl
  have hdispatch (u : State) :
      slotOrder.foldl (dispatchSlot t) (withInputs i ls u) = withInputs i ls (slotOrder.foldl (dispatchSlot t) u) :=
    List.foldl_hom (withInputs i ls) fun u j => dispatchSlot_withInputs i ls u t j
  have hpublish (u : State) : publishSnapshot t (withInputs i ls u) = withInputs i ls (publishSnapshot t u) := rfl
  unfold slotCycle dispatchEvents
  rw [hpasses, hpublish, hdispatch]
  rfl

/-- The end of a poll needs the same time (R175). -/
theorem pollDone_withInputs (h : i.now = s.world.inp.now) :
    pollDone (withInputs i ls s) = withInputs i ls (pollDone s) := by
  have hnow : (withInputs i ls s).now = s.now := congrArg s.cfg.timeOf h
  have hport : setPort (assemblePort (withInputs i ls s).brg.rd) (withInputs i ls s)
      = withInputs i ls (setPort (assemblePort s.brg.rd) s) := rfl
  unfold pollDone
  rw [hnow, hport, slotCycle_withInputs]
  rfl

theorem react_withInputs (h : s.seq.sst = .sRead → i.now = s.world.inp.now) :
    react (withInputs i ls s) = withInputs i ls (react s) := by
  unfold react
  rw [withInputs_seq, withInputs_brg]
  split
  case h_1 | h_2 | h_3 =>
    split
    · rfl
    · exact raise_withInputs ..
  case h_4 hsst =>
    split
    · exact pollDone_withInputs i ls s (h hsst)
    · exact raise_withInputs ..
  all_goals rfl

theorem exchangeStep_withInputs (h : s.seq.sst = .sRead → i.now = s.world.inp.now) :
    exchangeStep (withInputs i ls s) = withInputs i ls (exchangeStep s) := by
  unfold exchangeStep settle
  rw [bridgeStep_withInputs, withInputs_brg]
  split
  · exact react_withInputs i ls (bridgeStep s) (by simpa using h)
  · rfl

theorem startOwn_withInputs (q : Request) : startOwn q (withInputs i ls s) = withInputs i ls (startOwn q s) := by
  unfold startOwn
  rw [withInputs_cfg, withInputs_brg]
  split
  · rfl
  · exact raise_withInputs ..

theorem startStep_withInputs : startStep (withInputs i ls s) = withInputs i ls (startStep s) := by
  unfold startStep
  rw [withInputs_seq, withInputs_cfg]
  split
  case h_1 | h_2 | h_3 | h_4 => exact startOwn_withInputs ..
  all_goals rfl

theorem beginPoll_withInputs : beginPoll (withInputs i ls s) = withInputs i ls (beginPoll s) :=
  startStep_withInputs i ls (setSst .sRead s)

theorem openStep_withInputs : openStep (withInputs i ls s) = withInputs i ls (openStep s) := by
  have hcall : openCalled (withInputs i ls s) = withInputs i ls (openCalled s) :=
    congrArg (fun w => { openCalled s with world := w }) (afterOpen_withInputs i ls s.world)
  cases h : s.world.openAnswer with
  | ok =>
    rw [openStep_of_ok h, openStep_of_ok (s := withInputs i ls s) h, hcall]
    rfl
  | deviceNotFound =>
    rw [openStep_of_not_found h, openStep_of_not_found (s := withInputs i ls s) h, hcall, raise_withInputs]

theorem ownMove_withInputs (h : s.seq.sst = .sRead → i.now = s.world.inp.now) :
    ownMove (withInputs i ls s) = withInputs i ls (ownMove s) := by
  unfold ownMove
  rw [exchangeNext_withInputs]
  split
  · exact exchangeStep_withInputs i ls s h
  · exact startStep_withInputs ..

end

/-! ### What a move of the block by itself keeps -/

section
variable {s : State}

/-- A move writes no input: with the inputs it has put back, nothing differs. -/
theorem ownMove_inp (s : State) : (ownMove s).world.inp = s.world.inp := by
  have h := ownMove_withInputs s.world.inp s.world.lines s fun _ => rfl
  rw [withInputs_self] at h
  rw [h, withInputs_inp]

/-- `S_READ` and `S_OFF` are entered by the inputs alone: by a tick and by a stop (R174, R181). -/
def EnteredByInput (x : SeqState) : Prop := x = .sRead ∨ x = .sOff

theorem raise_sst (e : ErrClass) (o : BusOutcome) (s : State) :
    (raise e o s).seq.sst = s.seq.sst ∨ ¬ EnteredByInput (raise e o s).seq.sst := by
  by_cases he : e = .noErr
  · subst he; exact .inl rfl
  · refine .inr ?_
    rcases waiting_raise he o s with h | h | h <;> simp [EnteredByInput, h]

theorem react_sst (s : State) : (react s).seq.sst = s.seq.sst ∨ ¬ EnteredByInput (react s).seq.sst := by
  rcases react_cases s with ⟨-, -, hr⟩ | ⟨-, -, hr⟩ | ⟨-, -, hr⟩ | ⟨-, -, hr⟩ | ⟨-, -, hr⟩ | ⟨-, -, hr⟩ | ⟨-, hr⟩ <;>
    rw [hr]
  · exact .inr (by simp [EnteredByInput])
  · exact .inr (by simp [EnteredByInput])
  · exact .inr (by simp [EnteredByInput])
  · exact raise_sst ..
  · exact .inr (by simp [EnteredByInput, pollDone])
  · exact raise_sst ..
  · exact .inl rfl

theorem ownMove_sst (s : State) : (ownMove s).seq.sst = s.seq.sst ∨ ¬ EnteredByInput (ownMove s).seq.sst := by
  unfold ownMove
  split
  · unfold exchangeStep settle
    split
    · simpa using react_sst (bridgeStep s)
    · exact .inl (by simp)
  · rcases startStep_cases s with hr | ⟨q, hr⟩ | hr <;> rw [hr]
    · exact .inl rfl
    · exact .inl rfl
    · exact raise_sst ..

theorem sst_of_ownMove {x : SeqState} (hx : EnteredByInput x) (h : (ownMove s).seq.sst = x) : s.seq.sst = x := by
  rcases ownMove_sst s with hsame | hne
  · rw [← hsame, h]
  · rw [h] at hne; exact absurd hx hne

/-- The two ways the block moves by itself. -/
theorem ownMoveNext_cases (h : ownMoveNext s = true) :
    exchangeNext s = true ∨ (exchangeNext s = false ∧ inPass s = true ∧ s.brg.bst = .bIdle) := by
  cases hx : exchangeNext s with
  | true => exact .inl rfl
  | false =>
    cases hp : inPass s with
    | true => exact .inr ⟨rfl, rfl, by simpa [ownMoveNext, hp, hx] using h⟩
    | false => simp [ownMoveNext, hp, hx] at h

theorem active_of_ownMoveNext (h : ownMoveNext s = true) :
    s.seq.sst ≠ .sOpen ∧ s.seq.sst ≠ .sDead ∧ s.seq.sst ≠ .sOff := by
  cases hs : s.seq.sst <;> simp [ownMoveNext, inPass, hs] at h ⊢

theorem State.Inv.ownMove (h : s.Inv) (hmove : ownMoveNext s = true) : (ownMove s).Inv := by
  rcases ownMoveNext_cases hmove with hx | ⟨hx, hpass, hb⟩
  · obtain ⟨tx, hnext⟩ := Option.isSome_iff_exists.1 hx
    rw [ownMove_of_exchange hx]
    exact exchangeStep_inv h hnext
  · rw [ownMove_of_not_next hx]
    exact startStep_pass_inv h hpass hb

/-- What every move of the block by itself keeps holds after all of them. -/
theorem runOwn_induction {P : State → Prop} (hmove : ∀ u, P u → ownMoveNext u = true → P (ownMove u)) (n : Nat)
    (h : P s) : P (runOwn n s) := by
  induction n generalizing s with
  | zero => exact h
  | succ n ih =>
    cases hnext : ownMoveNext s with
    | false => rwa [runOwn_of_not _ hnext]
    | true => rw [runOwn_succ n hnext]; exact ih (hmove s h hnext)

theorem State.Inv.runOwn (h : s.Inv) (n : Nat) : (runOwn n s).Inv :=
  runOwn_induction (fun _ hu hmove => hu.ownMove hmove) n h

theorem runOwn_ne_off (h : s.seq.sst ≠ .sOff) (n : Nat) : (runOwn n s).seq.sst ≠ .sOff :=
  runOwn_induction (P := fun u => u.seq.sst ≠ .sOff) (fun _ hu _ hoff => hu (sst_of_ownMove (.inr rfl) hoff)) n h

/-- In a sound state with an operation in flight an exchange is next (R102). -/
theorem State.Inv.exchangeNext (h : s.Inv) (hbusy : s.busy = true) : exchangeNext s = true := by
  rw [exchangeNext_iff]
  obtain ⟨hopen, hidle⟩ := busy_iff.1 hbusy
  cases hb : s.brg.bst with
  | bClosed => exact absurd hb hopen
  | bIdle => exact absurd hb hidle
  | bCmd => exact .inl rfl
  | bStat => exact .inr (.inl ⟨rfl, h.poll_left hb⟩)
  | bData => exact .inr (.inr rfl)

/-- A sound state in which the block does not move by itself is not inside a pass or a poll (R185). -/
theorem State.Inv.waiting_of_no_move (h : s.Inv) (hmove : ownMoveNext s = false) : Waiting s ∨ s.seq.sst = .sOff := by
  have hpass : inPass s = false := by
    by_contra hp
    rw [Bool.not_eq_false] at hp
    simp only [ownMoveNext, hp, if_true, Bool.or_eq_false_iff, decide_eq_false_iff_not] at hmove
    obtain ⟨hx, hidle⟩ := hmove
    rw [h.exchangeNext (busy_iff.2 ⟨h.pass_open hp, hidle⟩)] at hx
    cases hx
  have hread : s.seq.sst ≠ .sRead := by
    intro hs
    simp [ownMoveNext, hpass, hs, h.exchangeNext (h.read_busy hs)] at hmove
  cases hs : s.seq.sst <;> simp [inPass, Waiting, hs] at hpass hread ⊢

end

/-! ### The block's moves as steps of the machine -/

/-- In a sound state, without `rst`, the block's own move is its step (R90, R171 to R173). -/
theorem State.Inv.blockStep_own {u : State} (h : u.Inv) (hrst : u.world.inp.rst = false) (hmove : ownMoveNext u = true) :
    blockStep u = .next (Machine.ownMove u) := by
  rcases ownMoveNext_cases hmove with hx | ⟨hx, hpass, hb⟩
  · obtain ⟨tx, hnext⟩ := Option.isSome_iff_exists.1 hx
    obtain ⟨hopen, hdead, hoff⟩ := active_of_ownMoveNext hmove
    rw [blockStep_eq, agenda_of_active hrst hopen hdead hoff, h.exec_fetchAgenda hnext, ownMove_of_exchange hx]
    rfl
  · rw [blockStep_of_pass_idle hrst hpass hb, ownMove_of_not_next hx]

/-- A step with a quiet line makes the block's own move. -/
theorem step_own {u : State} (h : u.Inv) (hmove : ownMoveNext u = true) (i : Inputs) {l : Inputs} (ls : List Inputs)
    (hrst : l.rst = false) (hquery : l.query = false) (hnow : u.seq.sst = .sRead → l.now = u.world.inp.now) :
    step (withInputs i (l :: ls) u) = .next (withInputs l ls (ownMove u)) := by
  rw [step, beginStep_withInputs i ls u hquery, (h.withInputs l ls).blockStep_own hrst hmove, ownMove_withInputs l ls u hnow]

/-- A run begins with its first step. -/
theorem run_of_step (M : Host.Core) {s t : M.State} (n : Nat) (h : M.step s = .next t) : M.run (n + 1) s = M.run n t := by
  simp only [Host.Core.run, h]

/-- With a quiet line for each, the block's moves by itself are a run of steps. -/
theorem runOwn_is_run (n : Nat) {u : State} (h : u.Inv) (i : Inputs) {l : Inputs} (hrst : l.rst = false)
    (hquery : l.query = false) (hnow : u.seq.sst = .sRead → l.now = u.world.inp.now) :
    ∃ m ≤ n, ∃ j ls, Sys2Proof.core.run m (withInputs i (List.replicate n l) u) = .next (withInputs j ls (runOwn n u)) := by
  induction n generalizing u i with
  | zero => exact ⟨0, le_rfl, i, [], rfl⟩
  | succ n ih =>
    cases hmove : ownMoveNext u with
    | false =>
      rw [runOwn_of_not _ hmove]
      exact ⟨0, Nat.zero_le _, i, _, rfl⟩
    | true =>
      have hstep := step_own h hmove i (List.replicate n l) hrst hquery hnow
      have hnow' : (ownMove u).seq.sst = .sRead → l.now = (ownMove u).world.inp.now := fun hread => by
        rw [ownMove_inp]; exact hnow (sst_of_ownMove (.inl rfl) hread)
      obtain ⟨m, hm, j, ls, hrun⟩ := ih (h.ownMove hmove) l hnow'
      refine ⟨m + 1, Nat.succ_le_succ hm, j, ls, ?_⟩
      rw [runOwn_succ n hmove, List.replicate_succ, run_of_step Sys2Proof.core m hstep, hrun]

/-- A first step, then the block's moves by itself until it waits: one run of steps to the block they lead to. -/
theorem run_of_first_step {s u : State} {l : Inputs} {n : Nat} (hu : u.Inv) (i : Inputs)
    (hstep : step s = .next (withInputs i (List.replicate n l) u)) (hrst : l.rst = false) (hquery : l.query = false)
    (hnow : u.seq.sst = .sRead → l.now = u.world.inp.now) (hwait : ownMoveNext (runOwn n u) = false) :
    ∃ m v, 1 ≤ m ∧ m ≤ n + 1 ∧ Sys2Proof.core.run m s = .next v ∧ sameBlock (runOwn n u) v ∧ ownMoveNext v = false ∧
      (Waiting v ∨ v.seq.sst = .sOff) := by
  obtain ⟨m, hm, j, ls, hrun⟩ := runOwn_is_run n hu i hrst hquery hnow
  exact ⟨m + 1, withInputs j ls (runOwn n u), Nat.le_add_left 1 m, Nat.succ_le_succ hm,
    (run_of_step Sys2Proof.core m hstep).trans hrun, sameBlock_withInputs j ls _, hwait,
    (hu.runOwn n).waiting_of_no_move hwait⟩

/-! ### The first steps -/

/-- A honoured tick starts the poll (R174). -/
theorem blockStep_of_tick {u : State} (hrst : u.world.inp.rst = false) (hstop : u.world.inp.stop = false)
    (htick : u.world.inp.tick = true) (hsst : u.seq.sst = .sIdle) (hb : u.brg.bst = .bIdle) :
    blockStep u = .next (beginPoll u) := by
  have hquiet : quietAgenda u = idleAgenda u.world.inp := by
    unfold quietAgenda
    rw [if_pos hb, hsst]
  have hidle : idleAgenda u.world.inp = .startPoll := by
    rw [idleAgenda, if_neg (ne_true_of_eq_false hstop), if_pos htick]
  rw [blockStep_eq, agenda_of_active hrst (by simp [hsst]) (by simp [hsst]) (by simp [hsst]), fetchAgenda_of_idle hb,
    hquiet, hidle]
  rfl

/-- In `S_OPEN` the step opens (R170). -/
theorem blockStep_of_open {u : State} (hrst : u.world.inp.rst = false) (hsst : u.seq.sst = .sOpen) :
    blockStep u = .next (openStep u) := by
  have hagenda : agenda u = .run .openBridge := by
    unfold agenda
    rw [if_neg (ne_true_of_eq_false hrst), hsst]
  rw [blockStep_eq, hagenda]
  exact if_pos hsst

/-- Where lines are listed, a step takes the first. -/
theorem step_of_lines {s : State} {l : Inputs} {ls : List Inputs} (hlines : s.world.lines = l :: ls)
    (hquery : l.query = false) : step s = blockStep (withInputs l ls s) := by
  have hself : s = withInputs s.world.inp (l :: ls) s := by rw [← hlines, withInputs_self]
  have hbegin := beginStep_withInputs s.world.inp ls s hquery
  rw [← hself] at hbegin
  rw [step, hbegin]

/-- The open enters the pass, or fails for good (R170). -/
theorem openStep_sst (s : State) : (openStep s).seq.sst = .sConfig ∨ (openStep s).seq.sst = .sDead := by
  rcases openStep_cases s with hr | hr <;> rw [hr]
  · exact .inl rfl
  · exact .inr rfl

/-- Settles O53: the tick is honoured in the first step, and the cycle it starts is run by the steps with quiet lines. -/
theorem pollIsARunOfSteps : Obligations.PollIsARunOfSteps := by
  intro s now hinv hsst hnow hlines
  have hb := hinv.idle hsst
  have hexec : exec .poll s = .next (runOwn (opFuel s.cfg) (beginPoll s)) := if_pos ⟨hsst, hb⟩
  have hstep := (step_of_lines hlines rfl).trans (blockStep_of_tick rfl rfl rfl hsst hb)
  rw [beginPoll_withInputs] at hstep
  have htime : (beginPoll s).world.inp.now = now := by rw [beginPoll_eq hinv.legal]; exact hnow
  obtain ⟨n, u, hlow, hhigh, hrun, hsame, hstop, hend⟩ :=
    run_of_first_step (beginPoll_inv hinv hsst hb) _ hstep rfl rfl (fun _ => htime.symm) (poll_waits hinv.legal)
  refine ⟨_, n, u, hexec, hlow, hhigh, hrun, hsame, hstop, fun hread => ?_⟩
  simp [Waiting, hread] at hend

/-- Settles O54: the first step opens, and the pass is run by the steps after it. -/
theorem bootIsARunOfSteps : Obligations.BootIsARunOfSteps := by
  intro s hinv hsst hlines
  have hexec : exec .boot s = .next (runOwn (passFuel s.cfg) (openStep s)) := if_pos hsst
  have hstep := (step_of_lines hlines rfl).trans (blockStep_of_open rfl hsst)
  rw [openStep_withInputs] at hstep
  have hfirst := openStep_sst s
  obtain ⟨n, u, hlow, hhigh, hrun, hsame, hstop, hend⟩ :=
    run_of_first_step (openStep_inv hinv) _ hstep rfl rfl (fun hread => by simp [hread] at hfirst) (boot_waits hinv.legal)
  refine ⟨_, n, u, hexec, hlow, hhigh, hrun, hsame, hstop, hend.resolve_right fun hoff => ?_⟩
  obtain ⟨-, hseq, -⟩ := hsame
  rw [hseq] at hoff
  exact runOwn_ne_off (by rcases hfirst with h | h <;> simp [h]) _ hoff

end Sys2Proof.Machine
end

section
/-! INITEXPANDER: the two expander writes of the start-up pass, run as moves of the block by itself (R130). -/

namespace Sys2Proof.Machine

/-- One part of the block's moves after another. -/
theorem OwnRuns.trans {m n : Nat} {s t u : State} (h : OwnRuns m s t) (g : OwnRuns n t u) : OwnRuns (m + n) s u := by
  obtain ⟨i, hi, rfl⟩ := h
  obtain ⟨j, hj, rfl⟩ := g
  exact ⟨i + j, Nat.add_le_add hi hj, runOwn_add i j s⟩

/-- Fuel beyond the state where the block waits is not used. -/
theorem OwnRuns.runOwn_eq {n k : Nat} {s t : State} (h : OwnRuns n s t) (hn : n ≤ k) (ht : Waiting t) :
    runOwn k s = t := by
  obtain ⟨m, hm, rfl⟩ := h
  rw [← Nat.add_sub_cancel' (hm.trans hn), runOwn_add, runOwn_of_not _ ht.no_move]

/-- A failed direction write ends the pass: the block waits (R184). -/
theorem waiting_react_of_failed_initDir {s : State} (hs : s.seq.sst = .sInitDir) (hres : s.brg.res ≠ .ok) :
    Waiting (react s) := by
  have hfail : react s = bootFail s.brg.res s := by simp [react, hs, hres]
  rw [hfail]
  exact waiting_raise (bootErrClass_ne_noErr hres) ..

/-- A direction write that ended OK leads to the pull-up write (R172). -/
theorem react_of_initDir_ok {s : State} (hs : s.seq.sst = .sInitDir) (hres : s.brg.res = .ok) :
    react s = setSst .sInitPu s := by
  simp [react, hs, hres]

/-- The pull-up write is admitted in `S_INIT_PU`, is made by the block's own moves, and is the last of them: the block waits after
it, whatever its outcome (R132, R173, R184). -/
theorem initPu_runs {s : State} (hs : s.seq.sst = .sInitPu) (hb : s.brg.bst = .bIdle) (hc : s.cfg.legal = true) :
    ∃ v, exec .initPu s = .next v ∧ OwnRuns (opFuel s.cfg + 1) s (react v) ∧ Waiting (react v) := by
  have hpass : inPass s = true := by simp [inPass, hs]
  obtain ⟨-, hseq, -⟩ := driverOp_onlyBridge (initPuRequest s.cfg) s
  have hlast : PassAt 0 (react (driverOp (initPuRequest s.cfg) s)) :=
    passAt_react ((inPass_congr hseq).trans hpass) (driverOp_bst _ (legal_statusPollMax hc)) (by rw [hseq, hs]; rfl)
  exact ⟨_, request_of_idle hb (argsOk_initPuRequest hc),
    pass_operation_runs hc (by simp [ownRequest, hs]) hpass hb, passAt_zero hlast⟩

/-- INITEXPANDER ends where the block waits after at most its two operations. -/
theorem exec_initExpander_of_runs {n : Nat} {s t : State} (hs : s.seq.sst = .sInitDir) (hb : s.brg.bst = .bIdle)
    (h : OwnRuns n s t) (hn : n ≤ 2 * (opFuel s.cfg + 1)) (ht : Waiting t) : exec .initExpander s = .next t := by
  have hfuel : n ≤ passFuel s.cfg := by unfold passFuel; omega
  rw [← h.runOwn_eq hfuel ht]
  exact if_pos ⟨hs, hb⟩

/-- Settles O20: the direction write and its reaction are the first moves of the run; a failure makes the block wait there, and
OK puts it at the pull-up write, after which it waits. -/
theorem initExpanderIsTheTwoWritesInOrder : Obligations.InitExpanderIsTheTwoWritesInOrder := by
  intro s hsst hb hc
  have hdir : exec .initDir s = .next (driverOp (initDirRequest s.cfg) s) :=
    request_of_idle hb (argsOk_initDirRequest hc)
  have hruns : OwnRuns (opFuel s.cfg + 1) s (react (driverOp (initDirRequest s.cfg) s)) :=
    pass_operation_runs hc (by simp [ownRequest, hsst]) (by simp [inPass, hsst]) hb
  have htb := driverOp_bst (s := s) (initDirRequest s.cfg) (legal_statusPollMax hc)
  obtain ⟨hcfg, hseq, -⟩ := driverOp_onlyBridge (initDirRequest s.cfg) s
  generalize driverOp (initDirRequest s.cfg) s = t at *
  have htsst : t.seq.sst = .sInitDir := by rw [hseq, hsst]
  by_cases hres : t.brg.res = .ok
  · have hnext : react t = setSst .sInitPu t := react_of_initDir_ok htsst hres
    obtain ⟨v, hpu, hrest, hwait⟩ := initPu_runs (s := setSst .sInitPu t) rfl htb (by rw [setSst_cfg, hcfg, hc])
    rw [← hnext] at hpu hrest
    rw [react_cfg, hcfg] at hrest
    have hexp := exec_initExpander_of_runs hsst hb (hruns.trans hrest) (by omega) hwait
    exact ⟨t, react v, hdir, hexp, fun hne => absurd hres hne, fun _ => ⟨v, hpu, rfl⟩⟩
  · have hexp := exec_initExpander_of_runs hsst hb hruns (by omega) (waiting_react_of_failed_initDir htsst hres)
    exact ⟨t, react t, hdir, hexp, fun _ => rfl, fun hok => absurd hok hres⟩

end Sys2Proof.Machine
end

section
/-! The slot cycle and the port: what each slot's two pins decode to is all a cycle reads of `PORT` (R136, R137). -/

namespace Sys2Proof.Machine

/-! ### The two pins of a slot -/

/-- The decoder by its two active-low bits (R77, R146). -/
theorem decodeLeds_eq_ite (c f : Bool) :
    decodeLeds c f = if c then (if f then .empty else .full) else (if f then .charging else .error) := by
  cases c <;> cases f <;> rfl

/-- Settles O37: the snapshot is the one published, and every slot's registers are the debounce of what its pins decode to. -/
theorem slotCycleDebouncesEverySlot : Obligations.SlotCycleDebouncesEverySlot := by
  intro t s i
  refine ⟨slotCycle_snap t s, ?_⟩
  intro c f d r
  have hd : decodedSlot s i = d := decodeLeds_eq_ite c f
  have hr : slotResult s i = r := by rw [slotResult, hd]
  obtain ⟨hcommit, hcand, hcnt⟩ := slotCycle_get t s i
  rw [hr] at hcommit hcand hcnt
  exact ⟨hd, hcommit, hcand, hcnt⟩

/-! ### Another port value that every slot decodes alike -/

/-- A slot's pass reads `PORT` through what the slot decodes to, and does not write it. -/
theorem slotPass_setPort {s : State} {p : BitVec 16} {i : Fin 6} (h : decodedSlot (setPort p s) i = decodedSlot s i) :
    slotPass (setPort p s) i = setPort p (slotPass s i) := by
  change debounceSlot i (decodedSlot (setPort p s) i) (setDecoded (decodedSlot (setPort p s) i) (setPort p s)) = _
  rw [h]
  rfl

theorem foldl_slotPass_setPort (l : List (Fin 6)) {s : State} {p : BitVec 16}
    (h : ∀ i, decodedSlot (setPort p s) i = decodedSlot s i) :
    l.foldl slotPass (setPort p s) = setPort p (l.foldl slotPass s) := by
  induction l generalizing s with
  | nil => rfl
  | cons i l ih =>
    rw [List.foldl_cons, List.foldl_cons, slotPass_setPort (h i)]
    exact ih (s := slotPass s i) h

/-- Publish and dispatch do not read `PORT`. -/
theorem dispatchEvents_setPort (t : Time) (s : State) (p : BitVec 16) :
    dispatchEvents t (setPort p s) = setPort p (dispatchEvents t s) := by
  rw [dispatchEvents_eq, dispatchEvents_eq]
  rfl

theorem slotCycle_setPort (t : Time) {s : State} {p : BitVec 16}
    (h : ∀ i, decodedSlot (setPort p s) i = decodedSlot s i) :
    slotCycle t (setPort p s) = setPort p (slotCycle t s) := by
  unfold slotCycle
  rw [foldl_slotPass_setPort slotOrder h]
  exact dispatchEvents_setPort t (publishSnapshot t (slotOrder.foldl slotPass s)) p

/-- Settles O40: port values that agree on the selected pins decode alike in every slot. -/
theorem unselectedPinsAreIgnored : Obligations.UnselectedPinsAreIgnored := by
  intro t s p hagree
  refine slotCycle_setPort t fun i => ?_
  obtain ⟨hchg, hfull⟩ := hagree i
  exact congrArg₂ decodeLeds hchg hfull

end Sys2Proof.Machine
end

section
/-! One debounce, and the debounces of one slot in consecutive cycles (R148 to R152). -/

namespace Sys2Proof.Machine

/-! ### The operation DEBOUNCE -/

/-- DEBOUNCE writes the three registers and the event of its slot, as its result `r` gives them (R145, R148). -/
theorem exec_debounce_of_result {i : Fin 6} {d : SlotState} {s : State} {r : SlotStep}
    (h : debounceOne s.cfg.debounceN d (s.slt.commit.get i) (s.slt.cand.get i) (s.slt.cnt.get i) = r) :
    exec (.debounce i d) s = .next { s with
      slt := { s.slt with
        commit := s.slt.commit.set i r.commit, cand := s.slt.cand.set i r.cand, cnt := s.slt.cnt.set i r.cnt }
      scratch := { s.scratch with ev := s.scratch.ev.set i r.ev } } := by
  subst h; rfl

section
variable {n cnt : BitVec 8} {d commit cand : SlotState}

theorem debounceOne_of_commit (h : d = commit) : debounceOne n d commit cand cnt = ⟨commit, d, 0#8, none⟩ := if_pos h

theorem debounceOne_of_reached (hne : d ≠ commit) (hobs : n.toNat ≤ (observations d cand cnt).toNat) :
    debounceOne n d commit cand cnt = ⟨d, d, 0#8, some (commit, d)⟩ := by
  rw [debounceOne, if_neg hne, if_pos hobs]

theorem debounceOne_of_below (hne : d ≠ commit) (hobs : (observations d cand cnt).toNat < n.toNat) :
    debounceOne n d commit cand cnt = ⟨commit, d, observations d cand cnt, none⟩ := by
  rw [debounceOne, if_neg hne, if_neg (Nat.not_le.2 hobs)]

end

/-- Settles O31: the observation count is read as a number, and compared with `DEBOUNCE_N`. -/
theorem debounceCountsAndCommits : Obligations.DebounceCountsAndCommits := by
  intro i d s n hne hcnt hn
  have hobs : (observations d (s.slt.cand.get i) (s.slt.cnt.get i)).toNat = n := (observations_toNat _ _ _ hcnt).trans hn.symm
  refine ⟨fun hreached => ?_, fun hbelow => ?_⟩
  · exact exec_debounce_of_result (debounceOne_of_reached hne (hreached.trans_eq hobs.symm))
  · rw [exec_debounce_of_result (debounceOne_of_below hne (hobs.trans_lt hbelow)), Six.set_get_self, ← hobs,
      BitVec.ofNat_toNat, BitVec.setWidth_eq]

/-- Settles O30: the result without an event, whose committed state is the one that stood. -/
theorem debounceSameStateDropsCandidate : Obligations.DebounceSameStateDropsCandidate := by
  intro i d s h
  rw [exec_debounce_of_result (debounceOne_of_commit h), Six.set_get_self, h]

/-- Settles O33: the three arrays are written at the debounced slot's index alone. -/
theorem debounceLeavesOtherSlots : Obligations.DebounceLeavesOtherSlots := by
  intro i j d s hij
  exact ⟨_, rfl, Six.get_set_of_ne _ _ hij, Six.get_set_of_ne _ _ hij, Six.get_set_of_ne _ _ hij, rfl, rfl, rfl, rfl, rfl, rfl⟩

/-! ### Consecutive cycles -/

/-- How many consecutive observations of `d` the registers `CAND` and `CNT` of a slot stand for: none where the candidate is
another state. -/
def runLength (d cand : SlotState) (cnt : BitVec 8) : Nat := if d = cand then cnt.toNat else 0

theorem runLength_self (d : SlotState) (cnt : BitVec 8) : runLength d d cnt = cnt.toNat := if_pos rfl

theorem runLength_eq_zero {d cand : SlotState} {cnt : BitVec 8} (h : cnt = 0#8 ∨ cand ≠ d) : runLength d cand cnt = 0 := by
  rcases h with rfl | hne
  · exact ite_self 0
  · exact if_neg hne.symm

/-- Another observation of `d` makes its run one longer (R150, R151). -/
theorem observations_eq_runLength {d cand : SlotState} {cnt : BitVec 8} (h : runLength d cand cnt < 255) :
    (observations d cand cnt).toNat = runLength d cand cnt + 1 := by
  by_cases hd : d = cand
  · subst hd
    rw [runLength_self] at h ⊢
    simp only [observations_toNat d d cnt h, true_and]
    split <;> omega
  · simp [observations, runLength, hd]

/-- Once committed, further observations of the state change nothing (R149). -/
theorem debounceTimes_committed (nn : BitVec 8) (d : SlotState) (n : Nat) :
    debounceTimes nn d n (d, d, 0#8) = (d, d, 0#8) := by
  induction n with
  | zero => rfl
  | succ n ih => rw [debounceTimes, debounceOne_of_commit rfl]; exact ih

/-- `n` further observations of `d` after a run below `DEBOUNCE_N` commit it where the run reaches `DEBOUNCE_N`, and leave the
committed state where it does not (R150 to R152). -/
theorem debounceTimes_of_runLength {nn : BitVec 8} {d commit : SlotState} (hne : d ≠ commit) (n : Nat) {cand : SlotState}
    {cnt : BitVec 8} (hrun : runLength d cand cnt < nn.toNat) :
    (runLength d cand cnt + n < nn.toNat → (debounceTimes nn d n (commit, cand, cnt)).1 = commit) ∧
    (nn.toNat ≤ runLength d cand cnt + n → debounceTimes nn d n (commit, cand, cnt) = (d, d, 0#8)) := by
  induction n generalizing cand cnt with
  | zero => exact ⟨fun _ => rfl, fun h => by omega⟩
  | succ n ih =>
    have hobs : (observations d cand cnt).toNat = runLength d cand cnt + 1 :=
      observations_eq_runLength (by have := nn.isLt; omega)
    rw [debounceTimes]
    by_cases hreached : nn.toNat ≤ runLength d cand cnt + 1
    · rw [debounceOne_of_reached hne (hreached.trans_eq hobs.symm)]
      exact ⟨fun h => by omega, fun _ => debounceTimes_committed nn d n⟩
    · have hbelow : (observations d cand cnt).toNat < nn.toNat := by omega
      rw [debounceOne_of_below hne hbelow]
      have hlen : runLength d d (observations d cand cnt) = runLength d cand cnt + 1 := (runLength_self ..).trans hobs
      obtain ⟨hkept, hcommitted⟩ := ih (cand := d) (cnt := observations d cand cnt) (by omega)
      exact ⟨fun h => hkept (by omega), fun h => hcommitted (by omega)⟩

/-- Settles O32: registers without a run of `d` stand for a run of length 0. -/
theorem debounceCommitsAfterExactlyN : Obligations.DebounceCommitsAfterExactlyN := by
  intro nn d commit cand cnt hnn hne hnorun
  have hrun : runLength d cand cnt = 0 := runLength_eq_zero hnorun
  have h (n : Nat) := debounceTimes_of_runLength hne n (hrun.trans_lt hnn)
  simp only [hrun, Nat.zero_add] at h
  exact forall_and.1 h

end Sys2Proof.Machine
end

section
/-! PUBLISH, DISPATCH and NOTIFY, and the outputs of a whole slot cycle: they are its transitions, in slot order (R155 to R164). -/

namespace Sys2Proof.Machine

/-! ### The operations -/

/-- Settles O34, by the one write of `publishSnapshot`. -/
theorem publishReplacesTheSnapshotWhole : Obligations.PublishReplacesTheSnapshotWhole := fun _ _ => rfl

/-- The loop over the slots, written out (R145, R156). -/
theorem flatMap_slotOrder {α : Type} (f : Fin 6 → List α) :
    slotOrder.flatMap f = f 0 ++ f 1 ++ f 2 ++ f 3 ++ f 4 ++ f 5 := by
  simp [slotOrder]

/-- Settles O35, from `Dispatch` in closed form. -/
theorem dispatchEmitsInSlotOrder : Obligations.DispatchEmitsInSlotOrder := by
  intro t s v
  rw [← flatMap_slotOrder (emitted s v)]
  exact congrArg Host.Outcome.next (dispatchEvents_eq v s)

/-- Settles O36: the two sides of the detector's condition. -/
theorem notifyOnlyIntoFull : Obligations.NotifyOnlyIntoFull := by
  intro i prev new t s
  refine ⟨fun h => congrArg Host.Outcome.next (if_pos h), fun h => congrArg Host.Outcome.next (if_neg ?_)⟩
  rintro ⟨hen, hfull⟩
  rcases h with h | h
  · rw [hen] at h; cases h
  · exact h hfull

/-! ### The output of one transition -/

section
variable {s u : State} {t : Time} {i : Fin 6}

theorem transitionOutput_of_kept (h : u.slt.commit.get i = s.slt.commit.get i) : transitionOutput s u t i = [] := if_pos h

theorem transitionOutput_of_changed (h : u.slt.commit.get i ≠ s.slt.commit.get i) :
    transitionOutput s u t i = .ev ⟨i, s.slt.commit.get i, u.slt.commit.get i, t⟩ ::
      (if s.cfg.notifyEn = true ∧ u.slt.commit.get i = .full then [.nt ⟨i, u.slt.commit, t⟩] else []) := if_neg h

/-- The events of a slot's output: the one of its transition (R156, R159). -/
theorem ev_mem_transitionOutput {e : TransitionEvent} :
    Output.ev e ∈ transitionOutput s u t i ↔
      u.slt.commit.get i ≠ s.slt.commit.get i ∧ e = ⟨i, s.slt.commit.get i, u.slt.commit.get i, t⟩ := by
  by_cases h : u.slt.commit.get i = s.slt.commit.get i
  · simp [transitionOutput_of_kept h, h]
  · rw [transitionOutput_of_changed h]
    split <;> simp [h]

/-- The notify requests of a slot's output: the one of a transition into FULL, when enabled (R162, R164). -/
theorem nt_mem_transitionOutput {n : NotifyRequest} :
    Output.nt n ∈ transitionOutput s u t i ↔
      u.slt.commit.get i ≠ s.slt.commit.get i ∧ (s.cfg.notifyEn = true ∧ u.slt.commit.get i = .full) ∧
        n = ⟨i, u.slt.commit, t⟩ := by
  by_cases h : u.slt.commit.get i = s.slt.commit.get i
  · simp [transitionOutput_of_kept h, h]
  · rw [transitionOutput_of_changed h, and_iff_right h]
    split
    · next hfull => rw [and_iff_right hfull]; simp
    · next hfull => simp [hfull]

/-- An output is an event of slot `j`. -/
def isEventOf (j : Fin 6) (o : Output) : Bool :=
  match o with
  | .ev e => decide (e.slot = j)
  | .nt _ => false

/-- A slot's output has at most one event, and none of another slot (R159). -/
theorem transitionOutput_events_le (j : Fin 6) :
    ((transitionOutput s u t i).filter (isEventOf j)).length ≤ if i = j then 1 else 0 := by
  by_cases h : u.slt.commit.get i = s.slt.commit.get i
  · simp [transitionOutput_of_kept h]
  · rw [transitionOutput_of_changed h]
    by_cases hij : i = j <;> split <;> simp [isEventOf, hij]

end

/-! ### The outputs of a cycle -/

/-- A debounce hands on an event exactly where it commits another state, and then one from the old state to the new (R149, R152,
R157). -/
theorem debounceOne_ev (n : BitVec 8) (d commit cand : SlotState) (cnt : BitVec 8) :
    (debounceOne n d commit cand cnt).ev = if (debounceOne n d commit cand cnt).commit = commit then none
      else some (commit, (debounceOne n d commit cand cnt).commit) := by
  rcases debounceOne_cases n d commit cand cnt with ⟨-, hr⟩ | ⟨hne, -, hr⟩ | ⟨-, -, hr⟩ <;> rw [hr]
  · exact (if_pos rfl).symm
  · exact (if_neg hne).symm
  · exact (if_pos rfl).symm

/-- A committed state that a cycle changed is the one decoded in it (R152). -/
theorem slotCycle_commit_of_changed {t : Time} {s : State} {i : Fin 6}
    (h : (slotCycle t s).slt.commit.get i ≠ s.slt.commit.get i) :
    (slotCycle t s).slt.commit.get i = decodedSlot s i := by
  obtain ⟨hcommit, -⟩ := slotCycle_get t s i
  rw [hcommit] at h ⊢
  unfold slotResult at h ⊢
  rcases debounceOne_cases s.cfg.debounceN (decodedSlot s i) (s.slt.commit.get i) (s.slt.cand.get i) (s.slt.cnt.get i) with
    ⟨-, hr⟩ | ⟨-, -, hr⟩ | ⟨-, -, hr⟩ <;> rw [hr] at h ⊢
  · exact absurd rfl h
  · exact absurd rfl h

/-- What the dispatch of a cycle emits for a slot is the output of its transition (R156, R161, R162). -/
theorem emitted_published (t : Time) (s : State) (i : Fin 6) :
    emitted (published t s) t i = transitionOutput s (slotCycle t s) t i := by
  have hcfg : (published t s).cfg = s.cfg := (slotPasses_frame s).1
  have hslt : (published t s).slt = (slotCycle t s).slt := (slotCycle_slt t s).symm
  have hev : (published t s).scratch.ev.get i = if (slotCycle t s).slt.commit.get i = s.slt.commit.get i then none
      else some (s.slt.commit.get i, (slotCycle t s).slt.commit.get i) := by
    obtain ⟨-, -, -, hev⟩ := slotPasses_get s i
    obtain ⟨hcommit, -⟩ := slotCycle_get t s i
    rw [hcommit]
    exact hev.trans (debounceOne_ev ..)
  unfold emitted
  rw [hev, hcfg, hslt]
  by_cases h : (slotCycle t s).slt.commit.get i = s.slt.commit.get i
  · rw [if_pos h, transitionOutput_of_kept h]
  · rw [if_neg h, transitionOutput_of_changed h]

/-- What a cycle appends to the traces: the outputs of its transitions, in slot order. -/
def cycleOutput (t : Time) (s : State) : List Output := slotOrder.flatMap (transitionOutput s (slotCycle t s) t)

theorem slotCycle_out_eq (t : Time) (s : State) : (slotCycle t s).out = s.out ++ cycleOutput t s := by
  rw [slotCycle_out, cycleOutput, funext (emitted_published t s)]

section
variable {t : Time} {s : State}

theorem mem_cycleOutput {o : Output} : o ∈ cycleOutput t s ↔ ∃ i, o ∈ transitionOutput s (slotCycle t s) t i := by
  simp [cycleOutput, List.mem_flatMap, mem_slotOrder]

/-- An event of a cycle goes from the state committed before to the decoded one (R156, R157). -/
theorem cycleOutput_ev {e : TransitionEvent} (h : Output.ev e ∈ cycleOutput t s) :
    e.prev = s.slt.commit.get e.slot ∧ e.new = decodedSlot s e.slot ∧ e.prev ≠ e.new ∧ e.new ≠ .unknown ∧ e.ts = t := by
  obtain ⟨i, hi⟩ := mem_cycleOutput.1 h
  obtain ⟨hne, rfl⟩ := ev_mem_transitionOutput.1 hi
  have hnew := slotCycle_commit_of_changed hne
  exact ⟨rfl, hnew, hne.symm, hnew ▸ decodedSlot_ne_unknown s i, rfl⟩

/-- A notify request of a cycle follows from an event into FULL (R162, R163). -/
theorem cycleOutput_nt {n : NotifyRequest} (h : Output.nt n ∈ cycleOutput t s) :
    s.cfg.notifyEn = true ∧ n.ts = t ∧ n.summary = (slotCycle t s).slt.commit ∧ n.summary.get n.slot = .full ∧
      ∃ e, Output.ev e ∈ cycleOutput t s ∧ e.slot = n.slot ∧ e.new = .full := by
  obtain ⟨i, hi⟩ := mem_cycleOutput.1 h
  obtain ⟨hne, ⟨hen, hfull⟩, rfl⟩ := nt_mem_transitionOutput.1 hi
  exact ⟨hen, rfl, rfl, hfull, _, mem_cycleOutput.2 ⟨i, ev_mem_transitionOutput.2 ⟨hne, rfl⟩⟩, rfl, hfull⟩

/-- A cycle has at most one event a slot (R159): only the slot's own output can hold one. -/
theorem cycleOutput_events_le_one (j : Fin 6) : ((cycleOutput t s).filter (isEventOf j)).length ≤ 1 := by
  have hone : ∀ j : Fin 6, (slotOrder.map fun i => if i = j then 1 else 0).sum = 1 := by decide
  calc ((cycleOutput t s).filter (isEventOf j)).length
      = (slotOrder.map fun i => ((transitionOutput s (slotCycle t s) t i).filter (isEventOf j)).length).sum := by
        rw [cycleOutput, List.filter_flatMap, List.length_flatMap]
    _ ≤ (slotOrder.map fun i => if i = j then 1 else 0).sum :=
        List.sum_le_sum fun _ _ => transitionOutput_events_le j
    _ = 1 := hone j

end

/-- Settles O38: the outputs are those of the transitions; the consequences are read off the output of one slot. -/
theorem cycleEventsAreRealTransitions : Obligations.CycleEventsAreRealTransitions := by
  intro t s
  exact ⟨cycleOutput t s, slotCycle_out_eq t s, flatMap_slotOrder _, fun _ => cycleOutput_ev, cycleOutput_events_le_one,
    fun _ => cycleOutput_nt⟩

/-- Settles O39: every slot's debounce is that of its committed state, so no slot has a transition. -/
theorem identicalSnapshotEmitsNothing : Obligations.IdenticalSnapshotEmitsNothing := by
  intro t s h
  have hresult (i : Fin 6) : slotResult s i = ⟨s.slt.commit.get i, decodedSlot s i, 0#8, none⟩ := debounceOne_of_commit (h i)
  have hregs (i : Fin 6) :
      (slotCycle t s).slt.commit.get i = s.slt.commit.get i ∧ (slotCycle t s).slt.cnt.get i = 0#8 := by
    obtain ⟨hcommit, -, hcnt⟩ := slotCycle_get t s i
    rw [hcommit, hcnt, hresult]
    exact ⟨rfl, rfl⟩
  obtain ⟨hcommit, hcnt⟩ := forall_and.1 hregs
  have hout : cycleOutput t s = [] := List.flatMap_eq_nil_iff.2 fun i _ => transitionOutput_of_kept (hcommit i)
  exact ⟨by rw [slotCycle_out_eq, hout, List.append_nil], Six.ext_get hcommit, Six.eq_fill hcnt⟩

end Sys2Proof.Machine
end

section
/-! The writers of the slot registers: the end of a successful poll alone (R154). -/

namespace Sys2Proof.Machine

/-- A successful poll ends in `S_IDLE` with `ERR` clear and a fresh snapshot of the sampled time (R175). -/
theorem pollDone_fresh (s : State) :
    (pollDone s).seq.sst = .sIdle ∧ (pollDone s).slt.snap.stale = false ∧ (pollDone s).seq.err = ⟨.noErr, .ok⟩ ∧
      (pollDone s).brg.res = s.brg.res ∧ (pollDone s).slt.snap.ts = s.now := by
  obtain ⟨-, hbrg, -, hseq, -, -, hslt, -⟩ := pollDone_fields s
  rw [hbrg, hseq, hslt, slotCycle_snap]
  exact ⟨rfl, rfl, rfl, rfl, rfl⟩

/-- An exchange takes no input, so the time stands as sampled (R28). -/
theorem bridgeStep_now (s : State) : (bridgeStep s).now = s.now := by simp [State.now]

/-- Settles O51: a step leaves the slots, or is the last exchange of a poll that ended OK. -/
theorem onlySuccessfulPollsChangeSlots : Obligations.OnlySuccessfulPollsChangeSlots := by
  intro s t _ hrst hstep
  rcases (step_move hstep).slots hrst with hsame | ⟨hsst, hres, rfl⟩
  · left; rwa [sameSlots, beginStep_slt] at hsame
  · obtain ⟨hidle, hstale, herr, hkept, hts⟩ := pollDone_fresh (bridgeStep (beginStep s))
    rw [bridgeStep_now, State.now, beginStep_cfg] at hts
    rw [beginStep_seq] at hsst
    exact .inr ⟨hsst, hidle, hstale, herr, hkept.trans hres, hts⟩

end Sys2Proof.Machine
end

section
/-! The sequencer's operations and the inputs of a step: open, reconnect, stop, and what `rst`, `stop` and `tick` do in each state
(R170, R174, R178, R180 to R182). -/

namespace Sys2Proof.Machine

/-! ### The operations, where they are admitted -/

section
variable {s : State}

theorem exec_openBridge (h : s.seq.sst = .sOpen) : exec .openBridge s = .next (openStep s) := if_pos h

theorem exec_stop (h : s.seq.sst = .sIdle) : exec .stop s = .next (stopStep s) := if_pos h

theorem exec_reconnect (h : inPass s = true ∨ s.seq.sst = .sRead) : exec .reconnect s = .next (fatalIO s) := if_pos h

/-- With no handle held an error whose class is fatal only marks and dies: there is nothing to close (R179, R195). -/
theorem die_of_closed (h : s.brg.bst = .bClosed) : die s = setSst .sDead s := by
  rw [die, hidClose_of_closed h]

/-- A fatal I/O error with the handle held: it is closed, and the first error gets one pass (R178). -/
theorem fatalIO_of_open (h : s.brg.bst ≠ .bClosed) :
    fatalIO s = { s with
      seq := (if s.seq.rc then { s.seq with sst := .sDead } else { s.seq with sst := .sOpen, rc := true })
      brg := { s.brg with bst := .bClosed }
      hid := s.hid ++ [.closed]
      world := { s.world with handle := false } } := by
  rw [fatalIO, hidClose_of_open h]
  split <;> rfl

end

/-- Settles O23: both operations test for `S_IDLE`. -/
theorem tickAndStopOutsideIdleAreDropped : Obligations.TickAndStopOutsideIdleAreDropped :=
  fun _ hsst => ⟨if_neg fun h => hsst h.1, if_neg hsst⟩

/-- Settles O24: the open by its answer; where it fails `bst` is still `B_CLOSED`, so dying makes no close. -/
theorem openBeginsThePassOrIsFatal : Obligations.OpenBeginsThePassOrIsFatal := by
  intro s hsst hb
  rw [exec_openBridge hsst]
  refine ⟨fun hok => ?_, fun hnone => ?_⟩
  · rw [openStep_of_ok hok, openCalled, hok]
    rfl
  · rw [openStep_of_not_found hnone, raise_of_deadly _ _ (.inl rfl), openCalled, hnone]
    exact congrArg Host.Outcome.next (die_of_closed hb)

/-- Settles O25: RECONNECT is the fatal I/O error of the four states that have an operation. -/
theorem reconnectOnceThenDead : Obligations.ReconnectOnceThenDead := by
  intro s hsst hb
  have hadmitted : inPass s = true ∨ s.seq.sst = .sRead := by
    rcases hsst with h | h | h | h <;> simp [inPass, h]
  rw [exec_reconnect hadmitted, fatalIO_of_open hb]

/-- Settles O26: in `B_IDLE` the handle is held, so the stop closes it. -/
theorem stopClosesAndTurnsOff : Obligations.StopClosesAndTurnsOff := by
  intro s hsst hb
  rw [exec_stop hsst, stopStep, hidClose_of_open (by simp [hb])]
  rfl

/-! ### The inputs of a step -/

section
variable {u : State}

/-- `rst` goes over everything (R182). -/
theorem blockStep_of_rst (h : u.world.inp.rst = true) : blockStep u = exec .reset u := by
  have hagenda : agenda u = .run .reset := if_pos h
  rw [blockStep_eq, hagenda]
  rfl

/-- `S_DEAD` and `S_OFF` have no step of their own (R180). -/
theorem blockStep_of_dead_or_off (hrst : u.world.inp.rst = false) (h : u.seq.sst = .sDead ∨ u.seq.sst = .sOff) :
    blockStep u = .next u := by
  have hagenda : agenda u = .rest := by
    unfold agenda
    rw [if_neg (ne_true_of_eq_false hrst)]
    rcases h with h | h <;> rw [h]
  rw [blockStep_eq, hagenda]
  rfl

/-- In `S_IDLE` a step is decided by the inputs (R174, R181, R182). -/
theorem blockStep_of_idle (hrst : u.world.inp.rst = false) (hsst : u.seq.sst = .sIdle) (hb : u.brg.bst = .bIdle) :
    blockStep u = runAgenda (idleAgenda u.world.inp) u := by
  have hquiet : quietAgenda u = idleAgenda u.world.inp := by
    unfold quietAgenda
    rw [if_pos hb, hsst]
  rw [blockStep_eq, agenda_of_active hrst (by simp [hsst]) (by simp [hsst]) (by simp [hsst]), fetchAgenda_of_idle hb, hquiet]

end

/-- Settles O43: the agenda of the state in which the step has begun, whose registers are those of the state before. -/
theorem stepHonoursInputsByPriority : Obligations.StepHonoursInputsByPriority := by
  intro s
  refine ⟨fun hrst => blockStep_of_rst hrst, fun hrst => ⟨fun hsst => ?_, fun hsst => ?_, fun hsst hb => ?_⟩⟩
  · have hopen : (beginStep s).seq.sst = .sOpen := by rw [beginStep_seq, hsst]
    rw [exec_openBridge hopen]
    exact blockStep_of_open hrst hopen
  · exact blockStep_of_dead_or_off hrst (by rwa [beginStep_seq])
  · have hidle : step s = runAgenda (idleAgenda (beginStep s).world.inp) (beginStep s) :=
      blockStep_of_idle hrst (by rw [beginStep_seq, hsst]) (by rw [beginStep_brg, hb])
    refine ⟨fun hstop => ?_, fun hstop htick => ?_, fun hstop htick => ?_⟩ <;> rw [hidle, idleAgenda, hstop]
    · rfl
    · rw [htick]; rfl
    · rw [htick]; rfl

end Sys2Proof.Machine
end

section
/-! The sequencer states a move of a step can lead to are those of the table of R183. -/

namespace Sys2Proof.Machine

theorem allowedTransition_refl (x : SeqState) : allowedTransition x x = true := by cases x <;> rfl

/-- An error of a start-up pass goes to `S_DEAD` or to `S_OPEN`: no class of the pass waits for a poll (R184, R190). -/
theorem raise_bootErrClass_sst {o : BusOutcome} (ho : o ≠ .ok) (s : State) :
    (raise (bootErrClass o) o s).seq.sst = .sDead ∨ (raise (bootErrClass o) o s).seq.sst = .sOpen := by
  obtain ⟨hntimeout, hnerror⟩ := bootErrClass_ne_bus o
  rcases raise_cases (bootErrClass o) o s with ⟨he, -⟩ | ⟨he, -⟩ | ⟨-, hr⟩ | ⟨-, hr⟩
  · exact absurd he (bootErrClass_ne_noErr ho)
  · exact (he.elim hntimeout hnerror).elim
  · rw [hr, die_seq]; exact .inl rfl
  · rw [hr, fatalIO_seq]
    cases (markFailed (bootErrClass o) o s).seq.rc
    · exact .inr rfl
    · exact .inl rfl

/-- The rows of R183 for the end of an operation. -/
theorem allowedTransition_react (s : State) : allowedTransition s.seq.sst (react s).seq.sst = true := by
  rcases react_cases s with ⟨hs, -, hr⟩ | ⟨hs, -, hr⟩ | ⟨hs, -, hr⟩ | ⟨hpass, hres, hr⟩ | ⟨hs, -, hr⟩ | ⟨hs, hres, hr⟩ |
    ⟨-, hr⟩ <;> rw [hr]
  · rw [hs]; rfl
  · rw [hs]; rfl
  · rw [hs]; rfl
  · have hend := raise_bootErrClass_sst hres s
    cases hs : s.seq.sst <;> simp [inPass, hs] at hpass <;> rcases hend with h | h <;> rw [h] <;> rfl
  · rw [hs]; rfl
  · rcases waiting_raise (errOf_ne_noErr hres) s.brg.res s with h | h | h <;> rw [hs, h] <;> rfl
  · exact allowedTransition_refl _

theorem allowedTransition_settle (s : State) : allowedTransition s.seq.sst (settle s).seq.sst = true := by
  by_cases hb : s.brg.bst = .bIdle
  · rw [settle_of_idle hb]; exact allowedTransition_react s
  · rw [settle_of_ne_idle hb]; exact allowedTransition_refl _

/-- With legal parameters the sequencer's own request is in bounds, so a start leaves the state (R91, R92). -/
theorem startStep_sst {s : State} (hc : s.cfg.legal = true) (hpass : inPass s = true) :
    (startStep s).seq.sst = s.seq.sst := by
  obtain ⟨q, hown⟩ := ownRequest_of_inPass hpass
  rw [startStep_of_own hc hown, setBrg_seq]

/-- The rows of R183, by the move made. -/
theorem Move.allowedTransition {u t : State} (m : Move u t) (hc : u.cfg.legal = true) (hrst : u.world.inp.rst = false) :
    allowedTransition u.seq.sst t.seq.sst = true := by
  cases m with
  | reset h _ => simp [h] at hrst
  | opened hsst => rcases openStep_sst u with h | h <;> rw [hsst, h] <;> rfl
  | exchange _ _ => simpa [exchangeStep] using allowedTransition_settle (bridgeStep u)
  | start hpass _ => rw [startStep_sst hc hpass, allowedTransition_refl]
  | poll hsst _ => rw [hsst, beginPoll_eq hc]; rfl
  | stop hsst => rw [hsst]; rfl
  | rest => exact allowedTransition_refl _

/-- Settles O49, by the moves of a step. -/
theorem sequencerFollowsItsTable : Obligations.SequencerFollowsItsTable := by
  intro s t hinv hrst hstep
  have hrow := (step_move hstep).allowedTransition (by rw [beginStep_cfg]; exact hinv.legal) hrst
  rwa [beginStep_seq] at hrow

end Sys2Proof.Machine
end

section
/-! What the sequencer's operations end with, for the start-up pass and for the poll: the outcomes of R117 in the big-step view, the
state a driver operation leaves, and what raising an error leaves of each register, class by class. -/

namespace Sys2Proof.Machine

/-! ### No operation of an admitted request ends with BADARG (R117) -/

section
variable {c : Config} {q : Request}

theorem commandVerdict_ne_badArg (x : XchgResult) : commandVerdict x ≠ some .badArg := by
  cases x <;> nofun

theorem pollVerdict_ne_badArg (x : XchgResult) : pollVerdict x ≠ some (.ended .badArg) := by
  cases x with
  | status st => cases st <;> nofun
  | ioErr | badSize | noAnswer | accepted | busy | data | noData => nofun

theorem fetchVerdict_ne_badArg (rl : Nat) (x : XchgResult) : (fetchVerdict rl x).1 ≠ .badArg := by
  cases x with
  | data n bytes => by_cases hn : n.toNat = rl <;> simp [fetchVerdict, hn]
  | ioErr | badSize | noAnswer | accepted | busy | status | noData => nofun

theorem pollStatus_ne_badArg (n : Nat) (r : Run) : (pollStatus c n r).1 ≠ .ended .badArg := by
  induction n generalizing r with
  | zero => nofun
  | succ n ih =>
    cases hv : pollVerdict (statusExchange c r).1 with
    | some e =>
      rw [pollStatus_of_verdict hv]
      rintro rfl
      exact pollVerdict_ne_badArg _ hv
    | none => rw [pollStatus_of_no_verdict hv]; exact ih _

theorem fetchData_ne_badArg (r : Run) : (fetchData c q r).1 ≠ .badArg := by
  cases hq : hasRead q.op with
  | false => rw [fetchData_of_write hq]; nofun
  | true => rw [fetchData_of_read hq]; exact fetchVerdict_ne_badArg _ _

theorem attempt_ne_badArg (r : Run) : (attempt c q r).1 ≠ .badArg := by
  cases hv : commandVerdict (commandExchange c q r).1 with
  | some o =>
    rw [attempt_of_verdict hv]
    rintro rfl
    exact commandVerdict_ne_badArg _ hv
  | none =>
    rw [attempt_of_accepted hv]
    cases hp : (pollStatus c c.statusPollMax (commandExchange c q r).2).1 with
    | ended o =>
      rintro rfl
      exact pollStatus_ne_badArg _ _ hp
    | complete => exact fetchData_ne_badArg _

theorem attempts_ne_badArg (n : Nat) (r : Run) : (attempts c q n r).1 ≠ .badArg := by
  induction n generalizing r with
  | zero => exact attempt_ne_badArg r
  | succ n ih =>
    cases hretry : retryable c.retryOn (attempt c q r).1 with
    | false => rw [attempts_succ_of_final n hretry]; exact attempt_ne_badArg r
    | true => rw [attempts_succ_of_retry n hretry]; exact ih _

theorem bigStepOp_ne_badArg (w : World) : (bigStepOp c q w).1 ≠ .badArg := attempts_ne_badArg _ _

end

/-! ### Operations in turn -/

section
variable {c : Config} {q : Request} {w : World}

theorem bigStepSeq_of_ok (qs : List Request) (h : (bigStepOp c q w).1 = .ok) :
    bigStepSeq c (q :: qs) w
      = ((bigStepSeq c qs (bigStepOp c q w).2.2.world).1,
          { world := (bigStepSeq c qs (bigStepOp c q w).2.2.world).2.world
            calls := (bigStepOp c q w).2.2.calls ++ (bigStepSeq c qs (bigStepOp c q w).2.2.world).2.calls }) := if_pos h

theorem bigStepSeq_of_failed (qs : List Request) (h : (bigStepOp c q w).1 ≠ .ok) :
    bigStepSeq c (q :: qs) w = ((bigStepOp c q w).1, (bigStepOp c q w).2.2) := if_neg h

theorem bigStepSeq_singleton (c : Config) (q : Request) (w : World) :
    bigStepSeq c [q] w = ((bigStepOp c q w).1, (bigStepOp c q w).2.2) := by
  by_cases h : (bigStepOp c q w).1 = .ok
  · rw [bigStepSeq_of_ok [] h, h]
    simp only [bigStepSeq, List.append_nil]
  · exact bigStepSeq_of_failed [] h

theorem bigStepSeq_ne_badArg (qs : List Request) (w : World) : (bigStepSeq c qs w).1 ≠ .badArg := by
  induction qs generalizing w with
  | nil => nofun
  | cons q qs ih =>
    by_cases h : (bigStepOp c q w).1 = .ok
    · rw [bigStepSeq_of_ok qs h]; exact ih _
    · rw [bigStepSeq_of_failed qs h]; exact bigStepOp_ne_badArg w

end

/-! ### The state a driver operation leaves -/

/-- A driver operation of the sequencer makes the run of the big-step operation and leaves the bridge idle with its outcome and
reply (R108, R117). -/
theorem driverOp_eq_afterRun {s : State} {q : Request} (hc : s.cfg.legal = true) (hq : argsOk s.cfg q = true) :
    ∃ b : BridgeRegs, b.bst = .bIdle ∧ b.res = (bigStepOp s.cfg q s.world).1 ∧
      b.rd = replyBytes (bigStepOp s.cfg q s.world).2.1 s.brg.rd ∧
      driverOp q s = afterRun s (bigStepOp s.cfg q s.world).2.2 b := by
  obtain ⟨tries, k, hrun⟩ := driverOp_eq_bigStepOp hq (legal_statusPollMax hc) (legal_four_le_maxPayload hc)
  exact ⟨_, rfl, rfl, rfl, hrun⟩

/-! ### Raising an error, register by register (R178, R179, R190, R191) -/

section
variable {e : ErrClass} (o : BusOutcome) (s : State)

theorem raise_seq_of_bus (h : e = .busTimeout ∨ e = .busError) : (raise e o s).seq = ⟨.sIdle, s.seq.rc, ⟨e, o⟩⟩ := by
  rw [raise_of_bus o s h]; rfl

theorem raise_seq_of_deadly (h : e = .deviceNotFound ∨ e = .initError ∨ e = .invalidReportSize ∨ e = .invalidArg) :
    (raise e o s).seq = ⟨.sDead, s.seq.rc, ⟨e, o⟩⟩ := by
  rw [raise_of_deadly o s h, die_seq]; rfl

theorem raise_seq_of_ioError :
    (raise .ioError o s).seq = ⟨if s.seq.rc then .sDead else .sOpen, true, ⟨.ioError, o⟩⟩ := by
  rw [raise_ioError, fatalIO_seq]; rfl

end

/-- No error writes the result latch (R18). -/
theorem raise_res (e : ErrClass) (o : BusOutcome) (s : State) : (raise e o s).brg.res = s.brg.res := by
  rcases raise_cases e o s with ⟨-, hr⟩ | ⟨-, hr⟩ | ⟨-, hr⟩ | ⟨-, hr⟩ <;> rw [hr]
  · rfl
  · rfl
  · rw [die_brg, hidClose_brg]; rfl
  · rw [fatalIO_brg, hidClose_brg]; rfl

/-- Every class that does not wait for the next poll closes the handle. -/
theorem raise_closes {e : ErrClass} (o : BusOutcome) {s : State} (hnone : e ≠ .noErr) (htimeout : e ≠ .busTimeout)
    (herror : e ≠ .busError) (hopen : s.brg.bst ≠ .bClosed) :
    (raise e o s).brg = { s.brg with bst := .bClosed } ∧ (raise e o s).hid = s.hid ++ [.closed] ∧
      (raise e o s).world = { s.world with handle := false } := by
  have hclose := hidClose_of_open (s := markFailed e o s) hopen
  rcases raise_cases e o s with ⟨he, -⟩ | ⟨he, -⟩ | ⟨-, hr⟩ | ⟨-, hr⟩
  · exact absurd he hnone
  · exact (he.elim htimeout herror).elim
  · rw [hr, die_brg, die_hid, die_world, hclose]
    exact ⟨rfl, rfl, rfl⟩
  · rw [hr, fatalIO_brg, fatalIO_hid, fatalIO_world, hclose]
    exact ⟨rfl, rfl, rfl⟩

end Sys2Proof.Machine
end

section
/-! BOOT: the open, then the three operations of the pass in turn, up to the first that does not end OK (R170 to R173, R184). -/

namespace Sys2Proof.Machine

/-! ### The end of a pass -/

/-- The reaction that ends a start-up pass, by the outcome of its last operation (R173, R184). -/
def passEnded (s : State) : State :=
  if s.brg.res = .ok then setSst .sIdle (setRc false s) else bootFail s.brg.res s

theorem passEnded_of_ok {s : State} (h : s.brg.res = .ok) : passEnded s = setSst .sIdle (setRc false s) := if_pos h

theorem passEnded_of_failed {s : State} (h : s.brg.res ≠ .ok) : passEnded s = raise (bootErrClass s.brg.res) s.brg.res s :=
  if_neg h

theorem waiting_passEnded (s : State) : Waiting (passEnded s) := by
  by_cases h : s.brg.res = .ok
  · rw [passEnded_of_ok h]; exact .inl rfl
  · rw [passEnded_of_failed h]; exact waiting_raise (bootErrClass_ne_noErr h) ..

theorem react_of_pass_failed {s : State} (hpass : inPass s = true) (hres : s.brg.res ≠ .ok) : react s = passEnded s := by
  cases hs : s.seq.sst <;> simp [inPass, react, passEnded, hs, hres] at hpass ⊢

theorem react_of_initPu {s : State} (hs : s.seq.sst = .sInitPu) : react s = passEnded s := by
  simp [react, passEnded, hs]

theorem react_of_config_ok {s : State} (hs : s.seq.sst = .sConfig) (hres : s.brg.res = .ok) :
    react s = setSst .sInitDir s := by
  simp [react, hs, hres]

/-- The end of a pass writes neither a slot nor the port nor the event traces (R154, R184). -/
theorem passEnded_frame (s : State) :
    sameSlots s (passEnded s) ∧ (passEnded s).port = s.port ∧ (passEnded s).out = s.out ∧ (passEnded s).cfg = s.cfg := by
  by_cases h : s.brg.res = .ok
  · rw [passEnded_of_ok h]
    exact ⟨sameSlots_of_slt_eq rfl, rfl, rfl, rfl⟩
  · rw [passEnded_of_failed h]
    exact ⟨sameSlots_raise .., raise_port .., raise_out .., raise_cfg ..⟩

/-- A failed pass closes the handle (R178, R179, R184). -/
theorem passEnded_closes {s : State} (hb : s.brg.bst = .bIdle) (h : s.brg.res ≠ .ok) :
    (passEnded s).brg = { s.brg with bst := .bClosed } ∧ (passEnded s).hid = s.hid ++ [.closed] ∧
      (passEnded s).world = { s.world with handle := false } := by
  obtain ⟨htimeout, herror⟩ := bootErrClass_ne_bus s.brg.res
  rw [passEnded_of_failed h]
  exact raise_closes _ (bootErrClass_ne_noErr h) htimeout herror (by simp [hb])

/-- The registers of `SEQ` after a failed pass, by the outcome (R184). -/
theorem passEnded_seq {s : State} :
    (s.brg.res = .timeout ∨ s.brg.res = .nack ∨ s.brg.res = .busy ∨ s.brg.res = .lenMismatch →
      (passEnded s).seq = ⟨.sDead, s.seq.rc, ⟨.initError, s.brg.res⟩⟩) ∧
    (s.brg.res = .badSize → (passEnded s).seq = ⟨.sDead, s.seq.rc, ⟨.invalidReportSize, .badSize⟩⟩) ∧
    (s.brg.res = .ioErr →
      (passEnded s).seq = ⟨if s.seq.rc then .sDead else .sOpen, true, ⟨.ioError, .ioErr⟩⟩) := by
  refine ⟨fun h => ?_, fun h => ?_, fun h => ?_⟩
  · rw [passEnded_of_failed (by rcases h with h | h | h | h <;> rw [h] <;> nofun)]
    have hclass : bootErrClass s.brg.res = .initError := by rcases h with h | h | h | h <;> rw [h] <;> rfl
    rw [hclass, raise_seq_of_deadly _ _ (.inr (.inl rfl))]
  · rw [passEnded_of_failed (by rw [h]; nofun), h]
    exact raise_seq_of_deadly _ _ (.inr (.inr (.inl rfl)))
  · rw [passEnded_of_failed (by rw [h]; nofun), h]
    exact raise_seq_of_ioError _ _

/-! ### The operations of a pass -/

/-- Within `n` moves the block makes the operations `qs` in turn, up to the first that does not end OK, and ends the pass: it has
made their run, and of the registers only `BRG` and `sst` were written before the end. -/
def PassEnds (n : Nat) (qs : List Request) (s : State) : Prop :=
  ∃ (x : SeqState) (b : BridgeRegs), b.bst = .bIdle ∧ b.res = (bigStepSeq s.cfg qs s.world).1 ∧
    OwnRuns n s (passEnded (setSst x (afterRun s (bigStepSeq s.cfg qs s.world).2 b)))

/-- One operation of a pass, and its reaction (R92, R117). -/
theorem pass_operation_afterRun {s : State} {q : Request} (hc : s.cfg.legal = true) (hown : ownRequest s = some q)
    (hpass : inPass s = true) (hb : s.brg.bst = .bIdle) :
    ∃ b : BridgeRegs, b.bst = .bIdle ∧ b.res = (bigStepOp s.cfg q s.world).1 ∧
      OwnRuns (opFuel s.cfg + 1) s (react (afterRun s (bigStepOp s.cfg q s.world).2.2 b)) := by
  obtain ⟨b, hbst, hres, -, hrun⟩ := driverOp_eq_afterRun hc (argsOk_ownRequest hc hown)
  exact ⟨b, hbst, hres, hrun ▸ pass_operation_runs hc hown hpass hb⟩

theorem OwnRuns.mono {m n : Nat} {s t : State} (h : OwnRuns m s t) (hmn : m ≤ n) : OwnRuns n s t := by
  obtain ⟨i, hi, hrun⟩ := h
  exact ⟨i, hi.trans hmn, hrun⟩

/-- One run made after another. -/
theorem afterRun_setSst_afterRun (s : State) (r r' : Run) (b b' : BridgeRegs) (x y : SeqState) :
    setSst y (afterRun (setSst x (afterRun s r b)) r' b')
      = setSst y (afterRun s { world := r'.world, calls := r.calls ++ r'.calls } b') := by
  simp [afterRun, setSst]

/-- The pull-up write is the last operation of the pass (R173). -/
theorem passEnds_initPu {s : State} (hc : s.cfg.legal = true) (hs : s.seq.sst = .sInitPu) (hb : s.brg.bst = .bIdle) :
    PassEnds (opFuel s.cfg + 1) [initPuRequest s.cfg] s := by
  have hown : ownRequest s = some (initPuRequest s.cfg) := by simp [ownRequest, hs]
  obtain ⟨b, hbst, hres, hrun⟩ := pass_operation_afterRun hc hown (by simp [inPass, hs]) hb
  rw [react_of_initPu (by exact hs)] at hrun
  refine ⟨s.seq.sst, b, hbst, ?_, ?_⟩ <;> rw [bigStepSeq_singleton]
  · exact hres
  · exact hrun

/-- An operation of the pass that, ended OK, is followed by the operations of the state `y` (R171, R172). -/
theorem passEnds_cons {n : Nat} {s : State} {q : Request} {qs : List Request} {y : SeqState} (hc : s.cfg.legal = true)
    (hown : ownRequest s = some q) (hpass : inPass s = true) (hb : s.brg.bst = .bIdle)
    (hreact : ∀ u : State, u.seq = s.seq → u.brg.res = .ok → react u = setSst y u)
    (hrest : ∀ (r : Run) (b : BridgeRegs), b.bst = .bIdle → PassEnds n qs (setSst y (afterRun s r b))) :
    PassEnds (opFuel s.cfg + 1 + n) (q :: qs) s := by
  obtain ⟨b, hbst, hres, hrun⟩ := pass_operation_afterRun hc hown hpass hb
  by_cases hok : (bigStepOp s.cfg q s.world).1 = .ok
  · have hnext := hreact (afterRun s (bigStepOp s.cfg q s.world).2.2 b) rfl (hres.trans hok)
    rw [hnext] at hrun
    obtain ⟨x, b', hbst', hres', hrun'⟩ := hrest (bigStepOp s.cfg q s.world).2.2 b hbst
    rw [afterRun_setSst_afterRun] at hrun'
    rw [PassEnds, bigStepSeq_of_ok qs hok]
    exact ⟨x, b', hbst', hres', hrun.trans hrun'⟩
  · rw [react_of_pass_failed (by exact hpass) (hres.trans_ne hok)] at hrun
    rw [PassEnds, bigStepSeq_of_failed qs hok]
    exact ⟨s.seq.sst, b, hbst, hres, hrun.mono (Nat.le_add_right ..)⟩

theorem passEnds_initDir {s : State} (hc : s.cfg.legal = true) (hs : s.seq.sst = .sInitDir) (hb : s.brg.bst = .bIdle) :
    PassEnds (opFuel s.cfg + 1 + (opFuel s.cfg + 1)) [initDirRequest s.cfg, initPuRequest s.cfg] s :=
  passEnds_cons hc (by simp [ownRequest, hs]) (by simp [inPass, hs]) hb
    (fun _ hseq hres => react_of_initDir_ok (by rw [hseq, hs]) hres)
    (fun r b hbst => passEnds_initPu (s := setSst .sInitPu (afterRun s r b)) hc rfl hbst)

theorem passEnds_config {s : State} (hc : s.cfg.legal = true) (hs : s.seq.sst = .sConfig) (hb : s.brg.bst = .bIdle) :
    PassEnds (opFuel s.cfg + 1 + (opFuel s.cfg + 1 + (opFuel s.cfg + 1)))
      [configureRequest s.cfg.busSpeedHz, initDirRequest s.cfg, initPuRequest s.cfg] s :=
  passEnds_cons hc (by simp [ownRequest, hs]) (by simp [inPass, hs]) hb
    (fun _ hseq hres => react_of_config_ok (by rw [hseq, hs]) hres)
    (fun r b hbst => passEnds_initDir (s := setSst .sInitDir (afterRun s r b)) hc rfl hbst)

/-! ### BOOT, by the answer of the open -/

/-- The state after the operations of a pass that began with the open of `s` and made the run `r` (R170 to R173). -/
def passMade (s : State) (x : SeqState) (r : Run) (b : BridgeRegs) : State :=
  setSst x (afterRun (enterPass (openCalled s)) r b)

theorem exec_boot_of_ok {s : State} (hc : s.cfg.legal = true) (hsst : s.seq.sst = .sOpen)
    (hok : s.world.openAnswer = .ok) :
    ∃ (x : SeqState) (b : BridgeRegs) (r : Run), b.bst = .bIdle ∧
      bigStepPass s.cfg { s.world.afterOpen with handle := true } = (b.res, r) ∧
      exec .boot s = .next (passEnded (passMade s x r b)) := by
  obtain ⟨x, b, hbst, hres, hrun⟩ := passEnds_config (s := enterPass (openCalled s)) hc rfl rfl
  have hboot : exec .boot s = .next (runOwn (passFuel s.cfg) (openStep s)) := if_pos hsst
  have hfuel : opFuel s.cfg + 1 + (opFuel s.cfg + 1 + (opFuel s.cfg + 1)) ≤ passFuel s.cfg := by unfold passFuel; omega
  refine ⟨x, b, _, hbst, Prod.ext hres.symm rfl, ?_⟩
  rw [hboot, openStep_of_ok hok]
  exact congrArg Host.Outcome.next (hrun.runOwn_eq hfuel (waiting_passEnded _))

theorem exec_boot_of_not_found {s : State} (hsst : s.seq.sst = .sOpen) (hnone : s.world.openAnswer = .deviceNotFound) :
    exec .boot s = .next (raise .deviceNotFound .ok (openCalled s)) := by
  have hboot : exec .boot s = .next (runOwn (passFuel s.cfg) (openStep s)) := if_pos hsst
  have hwait := waiting_raise (e := .deviceNotFound) nofun .ok (openCalled s)
  rw [hboot, openStep_of_not_found hnone, runOwn_of_not _ hwait.no_move]

/-- Settles O21: the open fails for good, or the run of the pass is made and its end reacts to the outcome. -/
theorem bootEndsIdleReopenOrDead : Obligations.BootEndsIdleReopenOrDead := by
  intro s hsst hb hc
  cases hopen : s.world.openAnswer with
  | deviceNotFound =>
    have hdie : raise .deviceNotFound .ok (openCalled s) = setSst .sDead (markFailed .deviceNotFound .ok (openCalled s)) :=
      (raise_of_deadly _ _ (.inl rfl)).trans (die_of_closed hb)
    refine ⟨_, exec_boot_of_not_found hsst hopen, sameSlots_raise _ _ (openCalled s), raise_port .., raise_out ..,
      raise_cfg .., fun _ => ?_, nofun⟩
    rw [hdie]
    exact ⟨rfl, rfl, rfl, congrArg (fun a => s.hid ++ [.opened a]) hopen⟩
  | ok =>
    obtain ⟨x, b, r, hbst, hpass, hexec⟩ := exec_boot_of_ok hc hsst hopen
    have hhid : (openCalled s).hid = s.hid ++ [.opened .ok] := congrArg (fun a => s.hid ++ [.opened a]) hopen
    have hbad : (b.res, r).1 ≠ .badArg := hpass ▸ bigStepSeq_ne_badArg _ _
    obtain ⟨hslots, hport, hout, hcfg⟩ := passEnded_frame (passMade s x r b)
    obtain ⟨hbus, hsize, hio⟩ := passEnded_seq (s := passMade s x r b)
    refine ⟨_, hexec, hslots, hport, hout, hcfg, nofun, fun _ => ?_⟩
    rw [hpass]
    refine ⟨fun hok => ?_, fun hfail => ?_, hbus, hsize, fun h hrc => ?_, fun h hrc => ?_, hbad⟩
    · rw [passEnded_of_ok hok, ← hhid]
      exact ⟨rfl, hbst, rfl, rfl, rfl⟩
    · obtain ⟨hbrg, hcalls, hworld⟩ := passEnded_closes (s := passMade s x r b) hbst hfail
      rw [hbrg, hcalls, hworld, passEnded_of_failed hfail, raise_slt, ← hhid]
      exact ⟨rfl, rfl, rfl, rfl, rfl⟩
    · rw [hio h]
      simp [passMade, afterRun, enterPass, openCalled, hrc]
    · rw [hio h]
      simp [passMade, afterRun, enterPass, openCalled, hrc]

end Sys2Proof.Machine
end

section
/-! POLL: the read of the port, and by its outcome the slot cycle or an error (R174 to R177, R192, R193, R196, R197). -/

namespace Sys2Proof.Machine

/-! ### What a slot cycle does not read -/

/-- `s` with the registers of `SEQ` and `BRG`, the trace `HID` and the world of `u`. -/
def withControlOf (u s : State) : State := { s with seq := u.seq, brg := u.brg, hid := u.hid, world := u.world }

/-- A slot cycle neither reads nor writes `SEQ`, `BRG`, `HID` and the world (R145). -/
theorem slotCycle_withControlOf (t : Time) (u s : State) :
    slotCycle t (withControlOf u s) = withControlOf u (slotCycle t s) := by
  have hpasses : slotOrder.foldl slotPass (withControlOf u s) = withControlOf u (slotOrder.foldl slotPass s) :=
    List.foldl_hom (withControlOf u) fun _ _ => rfl
  unfold slotCycle
  rw [hpasses, dispatchEvents_eq, dispatchEvents_eq]
  rfl

/-! ### The inputs during an operation -/

theorem runBridge_inp (n : Nat) (s : State) : (runBridge n s).world.inp = s.world.inp := by
  induction n generalizing s with
  | zero => rfl
  | succ n ih => unfold runBridge; split <;> simp [ih]

/-- An operation takes no input, so the time stands as sampled (R28). -/
theorem driverOp_inp (q : Request) (s : State) : (driverOp q s).world.inp = s.world.inp := runBridge_inp ..

/-! ### The read of a poll -/

/-- The state when the read of a poll from `s` has ended: the run `r` made, `BRG` left with `b`, the outcome not yet reacted to
(R174). -/
def pollMade (s : State) (r : Run) (b : BridgeRegs) : State := afterRun (setSst .sRead s) r b

/-- The meaning of POLL where it is honoured: the big-step read, then the reaction to its outcome. -/
theorem exec_poll_of_idle {s : State} (hc : s.cfg.legal = true) (hsst : s.seq.sst = .sIdle) (hb : s.brg.bst = .bIdle) :
    ∃ (b : BridgeRegs) (bytes : Option (List Byte)) (r : Run), b.bst = .bIdle ∧
      bigStepOp s.cfg (readPortRequest s.cfg) s.world = (b.res, bytes, r) ∧ b.rd = replyBytes bytes s.brg.rd ∧
      r.world.inp = s.world.inp ∧ exec .poll s = .next (react (pollMade s r b)) := by
  obtain ⟨b, hbst, hres, hrd, hrun⟩ := driverOp_eq_afterRun (s := setSst .sRead s) hc (argsOk_readPortRequest hc)
  have hruns := startStep_runs (s := setSst .sRead s) hc rfl
  have hinp := driverOp_inp (readPortRequest s.cfg) (setSst .sRead s)
  have hpoll : exec .poll s = .next (runOwn (opFuel s.cfg) (beginPoll s)) := if_pos ⟨hsst, hb⟩
  rw [setSst_cfg] at hrun hruns
  rw [hrun] at hruns hinp
  refine ⟨b, _, _, hbst, Prod.ext hres.symm rfl, hrd, hinp, ?_⟩
  rw [hpoll]
  exact congrArg Host.Outcome.next (hruns.runOwn_eq le_rfl (waiting_react_of_read rfl))

/-! ### The end of a read that was OK -/

theorem react_of_read_ok {s : State} (hs : s.seq.sst = .sRead) (hres : s.brg.res = .ok) : react s = pollDone s := by
  rw [react_of_read hs, if_pos hres]

theorem assemblePort_of_two (lo hi : Byte) (rest : List Byte) : assemblePort (lo :: hi :: rest) = hi ++ lo := rfl

/-- The cycle of a successful poll is the slot cycle of the state before POLL with the new port and its time (R175). -/
theorem pollDone_pollMade {s : State} {r : Run} {b : BridgeRegs} {lo hi : Byte} (hinp : r.world.inp = s.world.inp)
    (hrd : b.rd = replyBytes (some [lo, hi]) s.brg.rd) :
    (pollDone (pollMade s r b)).port = hi ++ lo ∧
    (pollDone (pollMade s r b)).slt = (slotCycle s.now (setPort (hi ++ lo) s)).slt ∧
    (pollDone (pollMade s r b)).out = (slotCycle s.now (setPort (hi ++ lo) s)).out := by
  obtain ⟨-, -, hport, -, -, -, hslt, hout⟩ := pollDone_fields (pollMade s r b)
  have hbytes : assemblePort (pollMade s r b).brg.rd = hi ++ lo := by
    change assemblePort b.rd = _
    rw [hrd]
    exact assemblePort_of_two lo hi _
  have hnow : (pollMade s r b).now = s.now := congrArg (fun i : Inputs => s.cfg.timeOf i.now) hinp
  have hcycle : slotCycle s.now (setPort (hi ++ lo) (pollMade s r b))
      = withControlOf (pollMade s r b) (slotCycle s.now (setPort (hi ++ lo) s)) :=
    slotCycle_withControlOf s.now (pollMade s r b) (setPort (hi ++ lo) s)
  rw [hbytes, hnow, hcycle] at hslt hout
  exact ⟨hport.trans hbytes, hslt, hout⟩

/-! ### The end of a read that failed -/

section
variable {s : State}

theorem react_of_read_failed (hs : s.seq.sst = .sRead) (hres : s.brg.res ≠ .ok) :
    react s = raise (errOf s.brg.res) s.brg.res s := by
  rw [react_of_read hs, if_neg hres]

/-- A bus outcome makes the block wait for the next poll, `BRG` and `HID` as they are (R176, R192, R193). -/
theorem react_of_read_bus (hs : s.seq.sst = .sRead)
    (h : s.brg.res = .timeout ∨ s.brg.res = .nack ∨ s.brg.res = .busy ∨ s.brg.res = .lenMismatch) :
    react s = setSst .sIdle (markFailed (errOf s.brg.res) s.brg.res s) := by
  have hres : s.brg.res ≠ .ok := by rcases h with h | h | h | h <;> rw [h] <;> nofun
  have hclass : errOf s.brg.res = .busTimeout ∨ errOf s.brg.res = .busError := by
    rcases h with h | h | h | h <;> simp [h, errOf]
  rw [react_of_read_failed hs hres, raise_of_bus _ _ hclass]

/-- A fatal outcome closes the handle (R177, R196, R197). -/
theorem react_of_read_fatal (hs : s.seq.sst = .sRead) (hb : s.brg.bst = .bIdle)
    (h : s.brg.res = .ioErr ∨ s.brg.res = .badSize) :
    (react s).brg.bst = .bClosed ∧ (react s).hid = s.hid ++ [.closed] := by
  have hres : s.brg.res ≠ .ok := by rcases h with h | h <;> rw [h] <;> nofun
  have htimeout : errOf s.brg.res ≠ .busTimeout := by rcases h with h | h <;> simp [h, errOf]
  have herror : errOf s.brg.res ≠ .busError := by rcases h with h | h <;> simp [h, errOf]
  obtain ⟨hbrg, hhid, -⟩ := raise_closes s.brg.res (errOf_ne_noErr hres) htimeout herror (s := s) (by simp [hb])
  rw [react_of_read_failed hs hres, hbrg]
  exact ⟨rfl, hhid⟩

/-- The registers of `SEQ` after a failed read, by the outcome (R176, R177). -/
theorem react_of_read_seq (hs : s.seq.sst = .sRead) :
    (s.brg.res = .timeout → (react s).seq = ⟨.sIdle, s.seq.rc, ⟨.busTimeout, .timeout⟩⟩) ∧
    (s.brg.res = .nack ∨ s.brg.res = .busy ∨ s.brg.res = .lenMismatch →
      (react s).seq = ⟨.sIdle, s.seq.rc, ⟨.busError, s.brg.res⟩⟩) ∧
    (s.brg.res = .ioErr → (react s).seq = ⟨if s.seq.rc then .sDead else .sOpen, true, ⟨.ioError, .ioErr⟩⟩) ∧
    (s.brg.res = .badSize → (react s).seq = ⟨.sDead, s.seq.rc, ⟨.invalidReportSize, .badSize⟩⟩) := by
  refine ⟨fun h => ?_, fun h => ?_, fun h => ?_, fun h => ?_⟩
  · rw [react_of_read_failed hs (by rw [h]; nofun), h]
    exact raise_seq_of_bus _ _ (.inl rfl)
  · have hclass : errOf s.brg.res = .busError := by rcases h with h | h | h <;> rw [h] <;> rfl
    rw [react_of_read_bus hs (.inr h), hclass]
    rfl
  · rw [react_of_read_failed hs (by rw [h]; nofun), h]
    exact raise_seq_of_ioError _ _
  · rw [react_of_read_failed hs (by rw [h]; nofun), h]
    exact raise_seq_of_deadly _ _ (.inr (.inr (.inl rfl)))

/-- The result latch keeps the outcome the reaction was to (R18). -/
theorem react_of_read_res (hs : s.seq.sst = .sRead) : (react s).brg.res = s.brg.res := by
  by_cases hres : s.brg.res = .ok
  · obtain ⟨-, hbrg, -⟩ := pollDone_fields s
    rw [react_of_read_ok hs hres, hbrg]
  · rw [react_of_read_failed hs hres, raise_res]

end

/-- Settles O22: the read is made, and its outcome is reacted to by the slot cycle or by the error of its class. -/
theorem pollCycleByOutcome : Obligations.PollCycleByOutcome := by
  intro s hsst hb hrc hc
  obtain ⟨b, bytes, r, hbst, hread, hrd, hinp, hexec⟩ := exec_poll_of_idle hc hsst hb
  have hreply := bigStepOp_reply (c := s.cfg) (q := readPortRequest s.cfg) s.world
  have hbad := bigStepOp_ne_badArg (c := s.cfg) (q := readPortRequest s.cfg) s.world
  obtain ⟨htimeout, herror, hio, hsize⟩ := react_of_read_seq (s := pollMade s r b) rfl
  have hfatal := react_of_read_fatal (s := pollMade s r b) rfl hbst
  refine ⟨_, hexec, react_cfg _, ?_⟩
  rw [hread] at hreply hbad ⊢
  refine ⟨react_of_read_res rfl, fun hok => ?_, fun hfail => ?_, fun h => ?_, fun h => ?_, fun h => ?_, fun h => ?_,
    fun h => ?_, hbad⟩
  · rw [hok] at hreply
    obtain ⟨lo, hi, rfl⟩ := hreply.two_bytes hc rfl rfl
    obtain ⟨-, hbrg, -, hseq, hhid, -⟩ := pollDone_fields (pollMade s r b)
    obtain ⟨hport, hslt, hout⟩ := pollDone_pollMade hinp hrd
    rw [react_of_read_ok rfl hok, hseq, hbrg, hhid, hslt, slotCycle_snap]
    exact ⟨lo, hi, rfl, hport, rfl, hbst, hrc, rfl, rfl, rfl, rfl, rfl, hout, rfl⟩
  · rw [react_of_read_failed rfl hfail]
    exact ⟨sameSlots_raise _ _ (pollMade s r b), by rw [raise_slt], raise_port .., raise_out ..⟩
  · rw [htimeout h]
  · rw [herror h]; rfl
  · rw [react_of_read_bus rfl h]
    exact ⟨rfl, hbst, hrc, rfl⟩
  · rw [hio h]
    exact ⟨congrArg (fun rc : Bool => (⟨if rc then .sDead else .sOpen, true, ⟨.ioError, .ioErr⟩⟩ : SeqRegs)) hrc,
      hfatal (.inl h)⟩
  · rw [hsize h]
    exact ⟨congrArg (fun rc => (⟨.sDead, rc, ⟨.invalidReportSize, .badSize⟩⟩ : SeqRegs)) hrc, hfatal (.inr h)⟩

end Sys2Proof.Machine
end
